-- ==== Sys2Proof/Word.lean ====
section
/-!
DEFINITION. The words of the GIF LZW compressor core: bytes, dictionary keys and codes (spec/30_encoding.md R71 to R73),
and the port words in which the fifteen operations are spelled (R80, R83 to R87).
-/

namespace Sys2Proof

/-- One byte: a pixel operand, a payload byte, a sub-block length (R71, R75). -/
abbrev Byte := BitVec 8

/-- One LZW code: "an integer in [0, 4095]" (R11, R72). -/
abbrev Code := BitVec 12

/-- One dictionary key, `(prefixCode << 8) | pixel` (R71). -/
abbrev Key := BitVec 20

/-- A request on one of the five ports behind the host interface (R83 to R87). -/
inductive PortWord where
  /-- `DW`, the dictionary request (R83). -/
  | dw (w : BitVec 34)
  /-- `WW`, the width-controller request (R84). -/
  | ww (w : BitVec 2)
  /-- `PW`, the packer request (R85). -/
  | pw (w : BitVec 14)
  /-- `FW`, the framer request (R86). -/
  | fw (w : BitVec 10)
  /-- `SW`, the sink transaction, first byte first (R87). -/
  | sw (bytes : List Byte)
  deriving DecidableEq, Repr

/-- A word that spells an operation: the host's command word `CW` (R80) or a word of an inner port. -/
inductive Word where
  | cw (w : BitVec 40)
  | port (w : PortWord)
  deriving DecidableEq, Repr

end Sys2Proof
end

