-- ==== Sys2Proof/Config.lean ====
section
/-!
DEFINITION. What is fixed for one core (spec/00_scope.md R4, R5), the parameters a model takes as arguments
(spec/93_implementation_defined.md U19), and the free values: everything the spec leaves unspecified, as constants
without a body, so that no proof can know one.
-/

namespace Sys2Proof.Config

/-- `SB_MAX`: the largest payload of one sub-block (R4). -/
abbrev sbMax : Nat := 255

/-- `BPP_MIN`: the clamp of BEGIN's argument (R4, R124). -/
abbrev bppMin : Nat := 2

/-- `BPP_MAX`: the largest `bpp` argument BEGIN accepts (R5). -/
abbrev bppMax : Nat := 8

/-- The default of `QUOTA_BITS`, the width of the pixel-quota counter, and the width of `CW.ARG`, from which it is loaded
(R5, R80, D10). -/
abbrev quotaBits : Nat := 32

/-- `ACC_BITS`: the width of the packer's accumulator (R5, R27). -/
abbrev accBits : Nat := 19

/-- `HT_SIZE`: the slots of the hashed-SRAM organisation (R5, R107). -/
abbrev htSize : Nat := 8192

/-- The sink's answer to one SINK.WRITE (R55, R186). -/
inductive Answer where
  | ok
  | fail
  deriving DecidableEq, Repr, Inhabited

/-- The items of state that the spec leaves unspecified at some point (R34, R206, U4 to U9), and the results it does not
state: each has free values of its own. -/
inductive Item where
  | bpp | clearCode | eofCode | quota | pendingPrefix | runningCode | runningBits | maxCode1
  | shiftValue | shiftBits | sbCount
  /-- A slot of the sub-block buffer. -/
  | slot (i : Nat)
  /-- `DR.code` of a reply without a hit (R83, U9). -/
  | replyCode
  /-- The code to insert when `runningCode` exceeds twelve bits (no state of a session does, R135). -/
  | insertCode
  deriving DecidableEq, Repr

/-- FREE VALUE. What an unspecified item of `w` bits holds; `draw` is the state's draw counter, so that two moments share
no value. -/
opaque freeBits (w : Nat) (item : Item) (draw : Nat) : BitVec w

/-- FREE VALUE. The entries of a dictionary whose content is unspecified (R29, R34, U8). -/
opaque freeEntries (draw : Nat) : List (Key × Code)

/-- FREE VALUE. How many bytes of a failed SINK.WRITE the output stream has taken (R55, U5). -/
opaque freeTaken (draw : Nat) : Nat

/-- FREE VALUE. The sink's answer where the state holds no answer given in advance (R186). -/
opaque sinkAnswer (draw : Nat) : Answer

/-- FREE VALUE. The hash of the hashed-SRAM organisation, which is in no source (R107, G1). -/
opaque hash (key : Key) : Nat

/-- The parameters a model takes as arguments (R5, U19). -/
structure Params where
  /-- `LZ_MAX_CODE`: the value of `runningCode` at which the dictionary is saturated (R4, D8). -/
  lzMaxCode : Nat
  /-- `LZ_BITS`: the ceiling of `runningBits` (R5, R154, D7). -/
  lzBits : Nat
  /-- `QUOTA_BITS`: the bits the pixel-quota counter has (R5, R26, D10). -/
  quotaBits : Nat
  deriving DecidableEq, Repr

/-- The defaults: 4096, 12 and 32 (R4, R5). -/
def defaults : Params := { lzMaxCode := 4096, lzBits := 12, quotaBits := 32 }

/-- D8's constraint on the parameters, `2^BPP_MAX + 2 < LZ_MAX_CODE <= 2^LZ_BITS`, with the ceiling inside the twelve
bits of a code for which the register widths of R20 are derived (D6, D7), and a quota counter that holds every value of
`CW.ARG` (R26: `1..2^32 - 1`). -/
abbrev Params.Valid (p : Params) : Prop :=
  2 ^ bppMax + 2 < p.lzMaxCode ∧ p.lzMaxCode ≤ 2 ^ p.lzBits ∧ p.lzBits ≤ 12 ∧ Config.quotaBits ≤ p.quotaBits

end Sys2Proof.Config
end

