-- ==== Sys2Proof/Syntax.lean ====
section
/-!
DEFINITION. The fifteen operations, one constructor per row of spec/opcode_table.json (spec/30_encoding.md R89).
-/

namespace Sys2Proof

/-- The operations of the core. Ignored fields of a word are no operands (R80, R88). -/
inductive Instr where
  /-- BEGIN: `req` is `CW.BPP`, `quota` is `CW.ARG` (R123). -/
  | begin (req : BitVec 4) (quota : BitVec 32)
  /-- PUSH: `pixel` is `CW[7:0]`, before masking (R125). -/
  | push (pixel : Byte)
  /-- RESET (R122). -/
  | reset
  /-- DICT.LOOKUP (R102). -/
  | dictLookup (key : Key)
  /-- DICT.INSERT (R103). -/
  | dictInsert (key : Key) (code : Code)
  /-- DICT.CLEAR (R101). -/
  | dictClear
  /-- WC.INIT (R151). -/
  | wcInit
  /-- WC.ADVANCE (R152). -/
  | wcAdvance
  /-- WC.GROW (R153). -/
  | wcGrow
  /-- PK.EMIT_DATA (R161). -/
  | pkEmitData (code : Code)
  /-- PK.EMIT_SPECIAL (R162). -/
  | pkEmitSpecial (code : Code)
  /-- PK.FLUSH (R163). -/
  | pkFlush
  /-- SB.PUT (R181). -/
  | sbPut (byte : Byte)
  /-- SB.TERMINATE (R182). -/
  | sbTerminate
  /-- SINK.WRITE: the bytes after the length byte; none for the TERMINATOR (R183, R87). -/
  | sinkWrite (payload : List Byte)
  deriving DecidableEq, Repr

end Sys2Proof
end

