-- ==== Sys2Proof/WellFormed.lean ====
section
/-!
DEFINITION. Which terms of `Instr` are operations of the hardware.
-/

namespace Sys2Proof

/-- Every operand field has its width in its type; what is left is the transaction of SINK.WRITE, whose one length byte
counts at most 255 payload bytes (R75, R87). -/
def wellFormed : Instr → Bool
  | .sinkWrite payload => decide (payload.length ≤ Config.sbMax)
  | .begin _ _ | .push _ | .reset | .dictLookup _ | .dictInsert _ _ | .dictClear | .wcInit | .wcAdvance | .wcGrow
  | .pkEmitData _ | .pkEmitSpecial _ | .pkFlush | .sbPut _ | .sbTerminate => true

end Sys2Proof
end

