-- ==== Sys2Proof/Decode.lean ====
section
/-!
DEFINITION. The decoder of every word of the core, total, rejecting by name, and the encoder beside it
(spec/30_encoding.md sections 2 to 4, spec/opcode_table.json).
-/

namespace Sys2Proof

/-- Why a word is no operation. -/
inductive Reject where
  /-- `CW.OPC` 0x0 or 0x4 to 0xF: an illegal command (R88). -/
  | reservedOpcode (opc : BitVec 4)
  /-- A port's `op` 0b00: no operation is requested (R83 to R86). -/
  | noOperation
  /-- `FW.op` 0b11: never generated (R86, U15). -/
  | reservedFramerOp
  /-- A list of bytes that is neither a SUBBLOCK nor the TERMINATOR: never presented (R87). -/
  | malformedTransaction
  deriving DecidableEq, Repr

/-- `CW`: `OPC` in bits 39:36, `BPP` in 35:32, `ARG` in 31:0 (R80). -/
def decodeCw (w : BitVec 40) : Except Reject Instr :=
  let opc := w.extractLsb' 36 4
  if opc = 0x1#4 then .ok (.begin (w.extractLsb' 32 4) (w.extractLsb' 0 32))
  else if opc = 0x2#4 then .ok (.push (w.extractLsb' 0 8))
  else if opc = 0x3#4 then .ok .reset
  else .error (.reservedOpcode opc)

/-- `DW`: `op` in bits 33:32, `key` in 31:12, `code` in 11:0 (R83). -/
def decodeDw (w : BitVec 34) : Except Reject Instr :=
  let op := w.extractLsb' 32 2
  if op = 0b01#2 then .ok (.dictLookup (w.extractLsb' 12 20))
  else if op = 0b10#2 then .ok (.dictInsert (w.extractLsb' 12 20) (w.extractLsb' 0 12))
  else if op = 0b11#2 then .ok .dictClear
  else .error .noOperation

/-- `WW`, two bits without an operand (R84). -/
def decodeWw (w : BitVec 2) : Except Reject Instr :=
  if w = 0b01#2 then .ok .wcInit
  else if w = 0b10#2 then .ok .wcAdvance
  else if w = 0b11#2 then .ok .wcGrow
  else .error .noOperation

/-- `PW`: `op` in bits 13:12, `code` in 11:0 (R85). -/
def decodePw (w : BitVec 14) : Except Reject Instr :=
  let op := w.extractLsb' 12 2
  if op = 0b01#2 then .ok (.pkEmitData (w.extractLsb' 0 12))
  else if op = 0b10#2 then .ok (.pkEmitSpecial (w.extractLsb' 0 12))
  else if op = 0b11#2 then .ok .pkFlush
  else .error .noOperation

/-- `FW`: `op` in bits 9:8, `byte` in 7:0 (R86). -/
def decodeFw (w : BitVec 10) : Except Reject Instr :=
  let op := w.extractLsb' 8 2
  if op = 0b01#2 then .ok (.sbPut (w.extractLsb' 0 8))
  else if op = 0b10#2 then .ok .sbTerminate
  else if op = 0b11#2 then .error .reservedFramerOp
  else .error .noOperation

/-- `SW`: "The first byte therefore always tells the length of the transaction" (R87). -/
def decodeSw : List Byte → Except Reject Instr
  | [] => .error .malformedTransaction
  | len :: payload => if payload.length = len.toNat then .ok (.sinkWrite payload) else .error .malformedTransaction

/-- The decoder of one word of an inner port. -/
def decodePort : PortWord → Except Reject Instr
  | .dw w => decodeDw w
  | .ww w => decodeWw w
  | .pw w => decodePw w
  | .fw w => decodeFw w
  | .sw bytes => decodeSw bytes

/-- The decoder: "The opcode map in prose" (R89). -/
def decode : Word → Except Reject Instr
  | .cw w => decodeCw w
  | .port w => decodePort w

/-- The bytes of one SUBBLOCK or of the TERMINATOR: the length, then the payload (R75, R76). -/
def frame (payload : List Byte) : List Byte := BitVec.ofNat 8 payload.length :: payload

/-- The encoder; every ignored field is 0, as the assembler sets it (R90). -/
def encode : Instr → Word
  | .begin req quota => .cw (0x1#4 ++ req ++ quota)
  | .push pixel => .cw (0x2#4 ++ 0#28 ++ pixel)
  | .reset => .cw (0x3#4 ++ 0#36)
  | .dictLookup key => .port (.dw (0b01#2 ++ key ++ 0#12))
  | .dictInsert key code => .port (.dw (0b10#2 ++ key ++ code))
  | .dictClear => .port (.dw (0b11#2 ++ 0#32))
  | .wcInit => .port (.ww 0b01#2)
  | .wcAdvance => .port (.ww 0b10#2)
  | .wcGrow => .port (.ww 0b11#2)
  | .pkEmitData code => .port (.pw (0b01#2 ++ code))
  | .pkEmitSpecial code => .port (.pw (0b10#2 ++ code))
  | .pkFlush => .port (.pw (0b11#2 ++ 0#12))
  | .sbPut byte => .port (.fw (0b01#2 ++ byte))
  | .sbTerminate => .port (.fw (0b10#2 ++ 0#8))
  | .sinkWrite payload => .port (.sw (frame payload))

/-- The word of an opcode-table row of `nbits` bits (exact, or rounded up to whole bytes) with the bits `w`. The words of
the core are parallel (R58), so a word is its number. Rounded widths are shared by two ports, whose rows' bits differ: in
40 bits `CW` has `OPC` at bit 36 and up and `DW` ends at bit 33; in 16 bits `PW` has `op` at bits 13:12 and `FW` ends at
bit 9; in 8 bits the values 1 to 3 are `WW`, every other value is the length byte of a SINK.WRITE with a payload of
zeros. -/
def tableWord (nbits w : Nat) : Option Word :=
  match nbits with
  | 40 => if 2 ^ 32 ≤ w ∧ w < 2 ^ 34 then some (.port (.dw (BitVec.ofNat 34 w))) else some (.cw (BitVec.ofNat 40 w))
  | 34 => some (.port (.dw (BitVec.ofNat 34 w)))
  | 2 => some (.port (.ww (BitVec.ofNat 2 w)))
  | 14 => some (.port (.pw (BitVec.ofNat 14 w)))
  | 10 => some (.port (.fw (BitVec.ofNat 10 w)))
  | 16 => if w < 2 ^ 10 then some (.port (.fw (BitVec.ofNat 10 w))) else some (.port (.pw (BitVec.ofNat 14 w)))
  | 8 =>
    if 1 ≤ w ∧ w ≤ 3 then some (.port (.ww (BitVec.ofNat 2 w)))
    else some (.port (.sw (BitVec.ofNat 8 w :: List.replicate (w % 256) 0)))
  | _ => none

/-- What the decoder reads from a table row's word (none where it rejects the word). -/
def decodeTableWord (nbits w : Nat) : Option Instr :=
  match tableWord nbits w with
  | none => none
  | some word => match decode word with
    | .ok i => some i
    | .error _ => none

end Sys2Proof
end

