-- ==== Sys2Proof/Machine/State.lean ====
section
/-!
DEFINITION. The state of the machine: the thirteen items of spec/10_state.md R20, and beside them what one step reads from
and shows to the host and the sink (R35, R50); the reasons a step can stop; the state right after reset.
-/

namespace Sys2Proof.Machine

/-- `fsm`, the control state of the Code Emitter, in the place of a program counter (R23). -/
inductive Fsm where
  /-- No session has begun since reset. -/
  | idle
  /-- A session is open, no pixel has been consumed. -/
  | awaitFirst
  /-- At least one pixel is consumed, the prefix register holds the match. -/
  | matching
  /-- The session has completed. -/
  | flushed
  /-- An error has been reported. -/
  | poisoned
  deriving DecidableEq, Repr

/-- The error kinds (R200). -/
inductive ErrorKind where
  | sinkWriteFailure
  | dataOverrun
  | stateMisuse
  /-- Never raised: all storage is static (R204). -/
  | allocationFailure
  deriving DecidableEq, Repr

/-- One thing the host does: a command word, or the reset input asserted between two commands (R56, R230). -/
inductive HostInput where
  | command (w : BitVec 40)
  | hardReset
  deriving DecidableEq, Repr

/-- A finite map in canonical form: a list sorted by address, each address once. The dictionary store and the sub-block
buffer are held so; a `Store Byte` is a list of `Host.Cell`. -/
abbrev Store (β : Type) := List (Nat × β)

/-- The machine's state. S0 to S12 are the items of R20, each register at its width; the rest is the core's surroundings
(R35, R50) and the model's own fields. -/
structure State where
  /-- S0 (R23). -/
  fsm : Fsm
  /-- S1: the error kind that poisoned the block, `none` for 0 (R24). -/
  cause : Option ErrorKind
  /-- S2: the effective bits per pixel (R21). -/
  bpp : BitVec 4
  /-- S3 (R21). -/
  clearCode : BitVec 9
  /-- S4 (R21). -/
  eofCode : BitVec 9
  /-- S5: the pixels the session still expects (R26). It is loaded from the 32 bits of `CW.ARG` and only counts down, so a
  wider `QUOTA_BITS` adds bits that are always 0 (R81). -/
  quota : BitVec Config.quotaBits
  /-- S6: the source's `pendingPrefix`, the register the spec calls by its short name (R25). -/
  pendingPrefix : Code
  /-- S7: the next code to assign (R22). -/
  runningCode : BitVec 13
  /-- S8: the current code width (R22). -/
  runningBits : BitVec 4
  /-- S9: the threshold that forces a width increase (R22). -/
  maxCode1 : BitVec 13
  /-- S10: the accumulator (R27). -/
  shiftValue : BitVec Config.accBits
  /-- S10: how many low bits of the accumulator are valid (R27). -/
  shiftBits : BitVec 5
  /-- S11: how many payload bytes the buffer holds; slot 0 of it (R28, R54). -/
  sbCount : BitVec 8
  /-- S11: the payload slots 1 to 255 that have been written since the buffer was last emptied (R28, R54). -/
  sbData : Store Byte
  /-- S12: the dictionary, from 20-bit keys to codes (R29). -/
  dict : Store Code
  /-- The command stream: what the host presents, first first (R50, R56). -/
  hostInput : List HostInput
  /-- MODEL: one request set at an inner port, so that an inner operation can be a step of its own. No step sets it. -/
  request : Option PortWord
  /-- The sink's answers given in advance, first first; past their end the answers are free values (R186). -/
  sinkScript : List Config.Answer
  /-- The output stream, owned by the sink (R50, R55). -/
  stream : List Byte
  /-- The output trace: the SINK.WRITE transactions, in order, with their results (R12, R183). -/
  trace : List (List Byte × Config.Answer)
  /-- The response word of the last command, `none` before the first (R82). -/
  response : Option (BitVec 8)
  /-- The reply `DR` to the last request at the dictionary port, `none` before the first (R83). -/
  dictReply : Option (BitVec 13)
  /-- MODEL: counts the draws of free values. -/
  draws : Nat
  /-- MODEL: which draw the slots not in `sbData` hold. -/
  slotDraw : Nat
  /-- The parameters a model takes as arguments; no step changes them (R5). -/
  params : Config.Params
  deriving DecidableEq, Repr

/-- Where the machine stops with a fault. -/
inductive Fault where
  /-- DICT.INSERT with the dictionary at its capacity, "undefined/ignored" (R103, U1). Raised by DICT.INSERT and by a PUSH
  that would insert so. SAFE: no session reaches it (R104), and nothing can be proved past it. -/
  | dictAtCapacity
  /-- DICT.INSERT of a key already present (R103, U2). Raised by DICT.INSERT alone: a PUSH has just missed the key. SAFE:
  as above. -/
  | dictDuplicateKey
  deriving DecidableEq, Repr

/-- Where a step is refused. -/
inductive Refusal where
  /-- An operation without a meaning in this model. No arm of `exec` answers it. SAFE. -/
  | notModelled (mnemonic : String)
  /-- An inner port shows a word that is never generated (R86, R87, U15: "stuck"). Raised by `step`, for a request the
  decoder rejects. SAFE: no command presents one. -/
  | neverGenerated (why : Reject)
  deriving DecidableEq, Repr

/-- The machine right after reset (R34, R231): IDLE, no cause. Every other item is unspecified; the value each holds here
is the model's (DESIGN CHOICE, notes/assumptions/1.md). Nothing has been presented, answered or written. -/
def State.reset : State where
  fsm := .idle
  cause := none
  bpp := 0
  clearCode := 0
  eofCode := 0
  quota := 0
  pendingPrefix := 0
  runningCode := 0
  runningBits := 0
  maxCode1 := 0
  shiftValue := 0
  shiftBits := 0
  sbCount := 0
  sbData := []
  dict := []
  hostInput := []
  request := none
  sinkScript := []
  stream := []
  trace := []
  response := none
  dictReply := none
  draws := 1
  slotDraw := 0
  params := Config.defaults

end Sys2Proof.Machine
end

