-- ==== Sys2Proof/Machine/Flags.lean ====
section
/-!
DEFINITION. The Boolean facts that play the part of flags (spec/10_state.md R32) and the response word computed from them
(spec/30_encoding.md R82).
-/

namespace Sys2Proof.Machine

/-- The encoding of `fsm` in its three bits (R23). -/
def fsmCode : Fsm → BitVec 3
  | .idle => 0
  | .awaitFirst => 1
  | .matching => 2
  | .flushed => 3
  | .poisoned => 4

/-- *awaiting first pixel* (R32). -/
def isAwaitingFirst (s : State) : Bool := s.fsm == .awaitFirst

/-- *done* (R32). -/
def isDone (s : State) : Bool := s.fsm == .flushed

/-- *poisoned* (R32, R12). -/
def isPoisoned (s : State) : Bool := s.fsm == .poisoned

/-- Whether the response shows the register `bpp` (R82). -/
def showsBpp (s : State) : Bool := s.fsm == .awaitFirst || s.fsm == .matching || s.fsm == .flushed

/-- *saturated*: `runningCode == LZ_MAX_CODE` (R12, R129). -/
def isSaturated (s : State) : Bool := s.runningCode.toNat == s.params.lzMaxCode

/-- The code of an error kind, in `RW.status` and in `cause` (R24, R82, R200); 0 is OK, and no cause. -/
def statusCode : Option ErrorKind → BitVec 3
  | none => 0
  | some .sinkWriteFailure => 1
  | some .dataOverrun => 2
  | some .stateMisuse => 3
  | some .allocationFailure => 4

/-- `RW`: `bpp` in bits 7:4, `done` in bit 3, `status` in bits 2:0 (R82). -/
def responseWord (s : State) (status : Option ErrorKind) : BitVec 8 :=
  (if showsBpp s then s.bpp else 0#4) ++ BitVec.ofBool (isDone s) ++ statusCode status

/-- `DR`: `hit` in bit 12, the code in bits 11:0 (R83). -/
def replyWord (hit : Bool) (code : Code) : BitVec 13 := BitVec.ofBool hit ++ code

end Sys2Proof.Machine
end

