-- ==== Sys2Proof/Machine/Operands.lean ====
section
/-!
DEFINITION. How operands are assembled (spec/30_encoding.md R71, R81), and how an exact result enters a register.
-/

namespace Sys2Proof.Machine

/-- The register value of an exact result. The rules compute over unbounded naturals and state the range in which a result
fits its register (R8); outside it they state no result, and the register holds the free value. -/
def fit (w n : Nat) (free : BitVec w) : BitVec w := if n < 2 ^ w then BitVec.ofNat w n else free

/-- The clamp `bpp = max(req, BPP_MIN)` (R81, R124). -/
def effectiveBpp (req : BitVec 4) : BitVec 4 := if req.toNat < Config.bppMin then BitVec.ofNat 4 Config.bppMin else req

/-- "legal BEGIN" means `CW.BPP <= 8` and `CW.ARG != 0` (R121). -/
def legalBegin (req : BitVec 4) (quota : BitVec 32) : Bool := decide (req.toNat ≤ Config.bppMax) && quota != 0

/-- The mask `2^bpp - 1` over the eight bits of the operand (R81). -/
def pixelMask (bpp : BitVec 4) : Byte := BitVec.ofNat 8 (2 ^ bpp.toNat - 1)

/-- `p = p8 & (2^bpp - 1)`: "core masks, it does not validate range beyond masking" (R81, R125). -/
def maskPixel (bpp : BitVec 4) (pixel : Byte) : Byte := pixel &&& pixelMask bpp

/-- `KEY`: `prefixCode` in bits 19:8, `pixel` in bits 7:0 (R71). -/
def keyOf (code : Code) (pixel : Byte) : Key := code ++ pixel

/-- A pixel is its own code (R105). -/
def pixelCode (pixel : Byte) : Code := pixel.zeroExtend 12

/-- A special code on the packer port (R73, R85). -/
def specialCode (code : BitVec 9) : Code := code.zeroExtend 12

/-- The code an insert stores: `runningCode`, which fits twelve bits whenever a rule inserts it (R103, R130). -/
def nextCode (s : State) : Code := fit 12 s.runningCode.toNat (Config.freeBits 12 .insertCode s.draws)

end Sys2Proof.Machine
end

