-- ==== Sys2Proof/Machine/Ops.lean ====
section
/-!
DEFINITION. The named operations over the stores and registers: the primitives of spec/20_memory.md R51 to R55, the items
that become unspecified (spec/10_state.md R34), the error entry (spec/60_exceptions.md R206) and the return from it (R210,
R230).
-/

namespace Sys2Proof.Machine

/-! ### Stores -/

/-- What a store holds at an address. -/
def storeGet {β : Type} : Store β → Nat → Option β
  | [], _ => none
  | (k, v) :: rest, a => if k = a then some v else storeGet rest a

/-- The store with one address written, in order. -/
def storePut {β : Type} : Store β → Nat → β → Store β
  | [], a, v => [(a, v)]
  | (k, w) :: rest, a, v =>
    if a < k then (a, v) :: (k, w) :: rest
    else if a = k then (a, v) :: rest
    else (k, w) :: storePut rest a v

/-- The canonical form: addresses strictly rising. -/
abbrev storeWf {β : Type} (m : Store β) : Prop := m.Pairwise (fun x y => x.1 < y.1)

/-- The canonical form of the machine's two stores: strictly rising addresses, the dictionary's below `2^20` (R71), the
buffer's among the slots 1 to 255 (R54). -/
abbrev Memory.wf (s : State) : Prop :=
  (storeWf s.dict ∧ ∀ e ∈ s.dict, e.1 < 2 ^ 20) ∧ (storeWf s.sbData ∧ ∀ e ∈ s.sbData, 1 ≤ e.1 ∧ e.1 ≤ Config.sbMax)

/-! ### How an operation ends -/

/-- An operation completes, or raises an error at a point of its rule (R9, R206). -/
inductive Run where
  | done (s : State)
  | raised (k : ErrorKind) (s : State)

/-- One operation after another: nothing runs after a `raise` (R62, R187). -/
def Run.andThen : Run → (State → Run) → Run
  | .done s, f => f s
  | .raised k s, _ => .raised k s

/-! ### Unspecified items -/

/-- The register of this draw of an item that has become unspecified. -/
def drawn (w : Nat) (item : Config.Item) (s : State) : BitVec w := Config.freeBits w item s.draws

/-- A dictionary whose content is unspecified: any entries, no more than its capacity (R29, R104). -/
def freeDict (s : State) : Store Code :=
  ((Config.freeEntries s.draws).take s.params.lzMaxCode).foldl (fun d e => storePut d e.1.toNat e.2) []

/-- S2 to S12 become unspecified (R34, R206, U4, U6). -/
def unspecify (s : State) : State :=
  { s with
    bpp := drawn 4 .bpp s
    clearCode := drawn 9 .clearCode s
    eofCode := drawn 9 .eofCode s
    quota := drawn Config.quotaBits .quota s
    pendingPrefix := drawn 12 .pendingPrefix s
    runningCode := drawn 13 .runningCode s
    runningBits := drawn 4 .runningBits s
    maxCode1 := drawn 13 .maxCode1 s
    shiftValue := drawn Config.accBits .shiftValue s
    shiftBits := drawn 5 .shiftBits s
    sbCount := drawn 8 .sbCount s
    sbData := []
    dict := freeDict s
    slotDraw := s.draws
    draws := s.draws + 1 }

/-- The prefix register is unspecified outside MATCHING (R25, R30, U7). -/
def forgetPrefix (s : State) : State :=
  { s with pendingPrefix := drawn 12 .pendingPrefix s, draws := s.draws + 1 }

/-- The dictionary's content is unspecified outside a session (R29, U8). -/
def forgetDict (s : State) : State := { s with dict := freeDict s, draws := s.draws + 1 }

/-! ### Responses, errors and the return from them -/

/-- `respond(OK)` (R9, R82). -/
def respondOk (s : State) : State := { s with response := some (responseWord s none) }

/-- Error entry, `raise K` (R206): `cause` keeps the first error, the block is poisoned, the response carries the kind.
After SinkWriteFailure every other item is unspecified; after the other kinds every other item keeps its value. -/
def raiseError (k : ErrorKind) (s : State) : State :=
  let r := match k with
    | .sinkWriteFailure => unspecify s
    | .dataOverrun | .stateMisuse | .allocationFailure => s
  let p : State := { r with cause := if s.fsm = Fsm.poisoned then s.cause else some k, fsm := Fsm.poisoned }
  { p with response := some (responseWord p (some k)) }

/-- Both forms of reset: IDLE, no cause, all other state unspecified, no response (R34, R122, R230). -/
def resetCore (s : State) : State := { unspecify s with fsm := .idle, cause := none }

/-- The state a command or an operation leaves. -/
def finish : Run → State
  | .done s => s
  | .raised k s => raiseError k s

/-! ### The dictionary store -/

/-- `DictRead(key)` (R51): `none` is `miss`. -/
def dictRead (s : State) (key : Key) : Option Code := storeGet s.dict key.toNat

/-- `dict` gains an entry (R52). -/
def dictPut (key : Key) (code : Code) (s : State) : State := { s with dict := storePut s.dict key.toNat code }

/-- `DictWrite(key, code)` (R52), a fault outside its precondition (R103, U1, U2). -/
def dictWrite (key : Key) (code : Code) (s : State) : Except Fault State :=
  if (dictRead s key).isSome then .error .dictDuplicateKey
  else if s.params.lzMaxCode ≤ s.dict.length then .error .dictAtCapacity
  else .ok (dictPut key code s)

/-- `DictClearAll()` (R53). -/
def dictClearAll (s : State) : State := { s with dict := [] }

/-! ### The sub-block buffer -/

/-- `BufRead(i)` (R54). Slot 0 is `sbCount`; a slot not written since the buffer was emptied holds an unspecified byte
(R28, U8). -/
def bufRead (s : State) (i : BitVec 8) : Byte :=
  if i = 0 then s.sbCount
  else (storeGet s.sbData i.toNat).getD (Config.freeBits 8 (.slot i.toNat) s.slotDraw)

/-- `BufWrite(i, b)` (R54). -/
def bufWrite (i : BitVec 8) (b : Byte) (s : State) : State :=
  if i = 0 then { s with sbCount := b } else { s with sbData := storePut s.sbData i.toNat b }

/-- `sbCount <- 0`: every slot is above `sbCount` now, and unspecified (R28, U8). -/
def bufEmpty (s : State) : State :=
  { s with sbCount := 0, sbData := [], slotDraw := s.draws, draws := s.draws + 1 }

/-- The payload the buffer holds: slots 1 to `sbCount`, in order (R28, R58). -/
def heldBytes (s : State) : List Byte :=
  (List.range s.sbCount.toNat).map (fun i => bufRead s (BitVec.ofNat 8 (i + 1)))

/-- A block as it leaves the buffer: "slots `0..sbCount` in order" (R28). -/
def heldBlock (s : State) : List Byte := bufRead s 0 :: heldBytes s

/-! ### The sink -/

/-- The sink's answer to the next SINK.WRITE (R55, R186). -/
def nextAnswer (s : State) : Config.Answer :=
  match s.sinkScript with
  | a :: _ => a
  | [] => Config.sinkAnswer s.draws

/-- What the output stream gains: all the bytes on `ok`, an unspecified front part of them on `fail` (R55, U5). -/
def streamGain (s : State) (bytes : List Byte) : List Byte :=
  match nextAnswer s with
  | .ok => bytes
  | .fail => bytes.take (Config.freeTaken s.draws)

/-- The state once the sink has answered: the stream and the trace have grown (R55, R183). -/
def sinkAnswered (bytes : List Byte) (s : State) : State :=
  { s with
    sinkScript := s.sinkScript.tail
    stream := s.stream ++ streamGain s bytes
    trace := s.trace ++ [(bytes, nextAnswer s)]
    draws := s.draws + 1 }

/-- SINK.WRITE(bytes) as an operation (R183). -/
def sinkWrite (bytes : List Byte) (s : State) : Run :=
  match nextAnswer s with
  | .ok => .done (sinkAnswered bytes s)
  | .fail => .raised .sinkWriteFailure (sinkAnswered bytes s)

end Sys2Proof.Machine
end

