-- ==== Sys2Proof/Machine/Dictionary.lean ====
section
/-!
DEFINITION. The Dictionary: DICT.CLEAR, DICT.LOOKUP, DICT.INSERT (spec/40_dictionary.md), over the abstract map.
-/

namespace Sys2Proof.Machine

/-- The reply of the dictionary port to one request: the code found, or no hit and an unspecified code (R83, U9). -/
def reply (found : Option Code) (s : State) : State :=
  { s with
    dictReply := some (replyWord found.isSome (found.getD (drawn 12 .replyCode s)))
    draws := s.draws + 1 }

/-- DICT.LOOKUP as a step of its own (R102). -/
def execDictLookup (key : Key) (s : State) : Host.Outcome State Fault Refusal := .next (reply (dictRead s key) s)

/-- DICT.INSERT as a step of its own; a fault outside the preconditions (R103, U1, U2). -/
def execDictInsert (key : Key) (code : Code) (s : State) : Host.Outcome State Fault Refusal :=
  match dictWrite key code s with
  | .error f => .fault f
  | .ok t => .next (reply none t)

/-- DICT.CLEAR as a step of its own (R101). -/
def execDictClear (s : State) : Host.Outcome State Fault Refusal := .next (reply none (dictClearAll s))

end Sys2Proof.Machine
end

