-- ==== Sys2Proof/Machine/Framer.lean ====
section
/-!
DEFINITION. The Sub-block Buffer and the sink port: SB.PUT, SB.TERMINATE, SINK.WRITE (spec/44_subblock_framer.md).
-/

namespace Sys2Proof.Machine

/-- SB.PUT's first part: a full buffer is written when another byte arrives, then emptied (R181). -/
def putRoom (s : State) : Run :=
  if s.sbCount.toNat = Config.sbMax then (sinkWrite (heldBlock s) s).andThen (fun t => .done (bufEmpty t)) else .done s

/-- SB.PUT's second part: the byte goes to the next slot (R181). -/
def putByte (b : Byte) (s : State) : State :=
  bufWrite (s.sbCount + 1) b { s with sbCount := s.sbCount + 1 }

/-- SB.PUT (R181). -/
def sbPut (b : Byte) (s : State) : Run := (putRoom s).andThen (fun t => .done (putByte b t))

/-- SB.TERMINATE's first part: the partial block, none for an empty buffer (R182, C5). -/
def flushPartial (s : State) : Run :=
  if s.sbCount = 0 then .done s else (sinkWrite (heldBlock s) s).andThen (fun t => .done (bufEmpty t))

/-- SB.TERMINATE (R182). -/
def sbTerminate (s : State) : Run := (flushPartial s).andThen (fun t => sinkWrite [0x00] t)

/-- SB.PUT as a step of its own. -/
def execSbPut (b : Byte) (s : State) : Host.Outcome State Fault Refusal := .next (finish (sbPut b s))

/-- SB.TERMINATE as a step of its own. -/
def execSbTerminate (s : State) : Host.Outcome State Fault Refusal := .next (finish (sbTerminate s))

/-- SINK.WRITE as a step of its own: one SUBBLOCK or the TERMINATOR (R183, R87). -/
def execSinkWrite (payload : List Byte) (s : State) : Host.Outcome State Fault Refusal :=
  .next (finish (sinkWrite (frame payload) s))

end Sys2Proof.Machine
end

