-- ==== Sys2Proof/Machine/Width.lean ====
section
/-!
DEFINITION. The adaptive code-width controller: WC.INIT, WC.ADVANCE, WC.GROW (spec/42_width_controller.md).
-/

namespace Sys2Proof.Machine

/-- `runningBits <- n ; maxCode1 <- 2^runningBits` (R151, R153). -/
def setWidth (n : Nat) (s : State) : State :=
  let bits := fit 4 n (drawn 4 .runningBits s)
  { s with
    runningBits := bits
    maxCode1 := fit 13 (2 ^ bits.toNat) (drawn 13 .maxCode1 s)
    draws := s.draws + 1 }

/-- WC.INIT (R151). -/
def wcInit (s : State) : State :=
  setWidth (s.bpp.toNat + 1)
    { s with runningCode := fit 13 (s.eofCode.toNat + 1) (drawn 13 .runningCode s) }

/-- WC.ADVANCE: `runningCode <- runningCode + 1` (R152). -/
def wcAdvance (s : State) : State :=
  { s with runningCode := fit 13 (s.runningCode.toNat + 1) (drawn 13 .runningCode s), draws := s.draws + 1 }

/-- WC.GROW, with the ceiling LZ_BITS (R153, R154). -/
def wcGrow (s : State) : State :=
  if s.maxCode1.toNat ≤ s.runningCode.toNat ∧ s.runningBits.toNat < s.params.lzBits then
    setWidth (s.runningBits.toNat + 1) s
  else s

/-- WC.INIT as a step of its own. -/
def execWcInit (s : State) : Host.Outcome State Fault Refusal := .next (wcInit s)

/-- WC.ADVANCE as a step of its own. -/
def execWcAdvance (s : State) : Host.Outcome State Fault Refusal := .next (wcAdvance s)

/-- WC.GROW as a step of its own. -/
def execWcGrow (s : State) : Host.Outcome State Fault Refusal := .next (wcGrow s)

end Sys2Proof.Machine
end

