-- ==== Sys2Proof/Machine/Packer.lean ====
section
/-!
DEFINITION. The Bit Packer: PK.EMIT_DATA, PK.EMIT_SPECIAL, PK.FLUSH (spec/43_bit_packer.md).
-/

namespace Sys2Proof.Machine

/-- `shiftValue & 0xFF` (R160, R165). -/
def lowByte (s : State) : Byte := s.shiftValue.extractLsb' 0 8

/-- `shiftValue >>= 8` and `shiftBits <- max(shiftBits - 8, 0)` (R160, R163). -/
def shiftOut (s : State) : State :=
  { s with shiftValue := s.shiftValue >>> 8, shiftBits := BitVec.ofNat 5 (s.shiftBits.toNat - 8) }

/-- One extraction: the low byte to the framer, then the shift (R160, R163). -/
def extractByte (s : State) : Run := (sbPut (lowByte s) s).andThen (fun t => .done (shiftOut t))

/-- `while shiftBits >= least`: extract. Five bits of `shiftBits` bound the turns. -/
def extractWhile (least : Nat) : Nat → State → Run
  | 0, s => .done s
  | turns + 1, s => if least ≤ s.shiftBits.toNat then (extractByte s).andThen (extractWhile least turns) else .done s

/-- `shiftValue |= c << shiftBits; shiftBits += runningBits` (R160). -/
def shiftIn (c : Code) (s : State) : State :=
  { s with
    shiftValue := fit Config.accBits (s.shiftValue.toNat ||| (c.toNat <<< s.shiftBits.toNat))
      (drawn Config.accBits .shiftValue s)
    shiftBits := fit 5 (s.shiftBits.toNat + s.runningBits.toNat) (drawn 5 .shiftBits s)
    draws := s.draws + 1 }

/-- `pack(c)`, the common core of the two emit operations (R160). -/
def pack (c : Code) (s : State) : Run := extractWhile 8 3 (shiftIn c s)

/-- PK.EMIT_DATA: packed at the old width, then WC.GROW (R161). -/
def emitData (c : Code) (s : State) : Run := (pack c s).andThen (fun t => .done (wcGrow t))

/-- PK.EMIT_SPECIAL: `pack(c)` and nothing else (R162). -/
def emitSpecial (c : Code) (s : State) : Run := pack c s

/-- PK.FLUSH: the last bits, padded with zeros, then SB.TERMINATE (R163). -/
def flush (s : State) : Run := (extractWhile 1 4 s).andThen sbTerminate

/-- PK.EMIT_DATA as a step of its own. -/
def execPkEmitData (c : Code) (s : State) : Host.Outcome State Fault Refusal := .next (finish (emitData c s))

/-- PK.EMIT_SPECIAL as a step of its own. -/
def execPkEmitSpecial (c : Code) (s : State) : Host.Outcome State Fault Refusal := .next (finish (emitSpecial c s))

/-- PK.FLUSH as a step of its own. -/
def execPkFlush (s : State) : Host.Outcome State Fault Refusal := .next (finish (flush s))

end Sys2Proof.Machine
end

