-- ==== Sys2Proof/Machine/Emitter.lean ====
section
/-!
DEFINITION. The Code Emitter and the host commands: RESET, BEGIN, PUSH (spec/41_code_emitter.md).
-/

namespace Sys2Proof.Machine

/-! ### RESET -/

/-- RESET (R122). -/
def execReset (s : State) : Host.Outcome State Fault Refusal := .next (respondOk (resetCore s))

/-! ### BEGIN -/

/-- `quota <- q`: "zero extended, used as is" (R81). The spec states no result where `QUOTA_BITS` bits do not hold `q`
(no valid parameter is such). -/
def loadedQuota (quota : BitVec 32) (s : State) : BitVec Config.quotaBits :=
  if quota.toNat < 2 ^ s.params.quotaBits then quota else drawn Config.quotaBits .quota s

/-- The registers BEGIN writes itself (R123). With `req <= 8`, which BEGIN has checked, both special codes fit their nine
bits (R21). -/
def loadSession (req : BitVec 4) (quota : BitVec 32) (s : State) : State :=
  { s with
    bpp := effectiveBpp req
    clearCode := BitVec.ofNat 9 (2 ^ (effectiveBpp req).toNat)
    eofCode := BitVec.ofNat 9 (2 ^ (effectiveBpp req).toNat + 1)
    quota := loadedQuota quota s
    shiftValue := 0
    shiftBits := 0
    fsm := .awaitFirst }

/-- A session open and still without a code: registers loaded, prefix and slots unspecified, widths at their start,
dictionary empty. The rule writes `fsm` after DICT.CLEAR; none of the operations before reads it (R123). -/
def openSession (req : BitVec 4) (quota : BitVec 32) (s : State) : State :=
  dictClearAll (wcInit (bufEmpty (forgetPrefix (loadSession req quota s))))

/-- BEGIN's steps after its checks (R123). -/
def beginSession (req : BitVec 4) (quota : BitVec 32) (s : State) : Run :=
  (emitSpecial (specialCode (openSession req quota s).clearCode) (openSession req quota s)).andThen
    (fun t => .done (respondOk t))

/-- BEGIN (R123), its checks in the order of the rule (R207). -/
def execBegin (req : BitVec 4) (quota : BitVec 32) (s : State) : Host.Outcome State Fault Refusal :=
  if s.fsm ≠ .idle ∧ s.fsm ≠ .flushed then .next (raiseError .stateMisuse s)
  else if Config.bppMax < req.toNat then .next (raiseError .stateMisuse s)
  else if quota = 0 then .next (raiseError .stateMisuse s)
  else .next (finish (beginSession req quota s))

/-! ### PUSH -/

/-- `quota <- quota - 1`; it never wraps (R26), so a quota of 0 states no result. -/
def countPixel (s : State) : State :=
  { s with
    quota := if s.quota = 0 then drawn Config.quotaBits .quota s else s.quota - 1
    draws := s.draws + 1 }

/-- `prefix <- c` (R25). -/
def setPrefix (c : Code) (s : State) : State := { s with pendingPrefix := c }

/-- The first pixel becomes the prefix (R126). -/
def pushFirst (p : Byte) (s : State) : State := { s with pendingPrefix := pixelCode p, fsm := .matching }

/-- A saturated miss, after the data code (R129). -/
def pushSaturated (s : State) : Run :=
  (emitSpecial (specialCode s.clearCode) s).andThen (fun t => .done (dictClearAll (wcInit t)))

/-- An ordinary miss, after the data code (R130). -/
def pushInsert (key : Key) (s : State) : Except Fault Run :=
  match dictWrite key (nextCode s) s with
  | .error f => .error f
  | .ok t => .ok (.done (wcAdvance t))

/-- A miss: the old prefix is emitted, the match restarts at `p`, then the dictionary changes (R128). -/
def pushMiss (p : Byte) (s : State) : Except Fault Run :=
  match emitData s.pendingPrefix s with
  | .raised k t => .ok (.raised k t)
  | .done t =>
    if isSaturated t then .ok (pushSaturated (setPrefix (pixelCode p) t))
    else pushInsert (keyOf s.pendingPrefix p) (setPrefix (pixelCode p) t)

/-- A pixel in MATCHING: hit or miss (R125, R127). -/
def pushMatching (p : Byte) (s : State) : Except Fault Run :=
  match dictRead s (keyOf s.pendingPrefix p) with
  | some c => .ok (.done (setPrefix c s))
  | none => pushMiss p s

/-- The pixel's own processing, by the state it arrives in (R125). -/
def pushPixel (p : Byte) (s : State) : Except Fault Run :=
  if s.fsm = .awaitFirst then .ok (.done (pushFirst p s)) else pushMatching p s

/-- `fsm <- FLUSHED`: the prefix register and the dictionary are unspecified from here (R25, R29). -/
def retire (s : State) : State := forgetDict (forgetPrefix { s with fsm := .flushed })

/-- Termination when `quota` has reached 0: the final prefix, `eofCode`, the flush (R131). -/
def terminate (s : State) : Run :=
  if s.quota = 0 then
    (emitData s.pendingPrefix s).andThen fun t =>
      (emitSpecial (specialCode t.eofCode) t).andThen fun u =>
        (flush u).andThen fun v => .done (retire v)
  else .done s

/-- PUSH's end: termination if due, then the response (R125). -/
def pushEnd (r : Run) : State := finish ((r.andThen terminate).andThen (fun t => .done (respondOk t)))

/-- PUSH's steps after its checks (R125). -/
def pushSession (pixel : Byte) (s : State) : Host.Outcome State Fault Refusal :=
  match pushPixel (maskPixel s.bpp pixel) (countPixel s) with
  | .error f => .fault f
  | .ok r => .next (pushEnd r)

/-- PUSH (R125), its checks first (R207). -/
def execPush (pixel : Byte) (s : State) : Host.Outcome State Fault Refusal :=
  if s.fsm = .idle ∨ s.fsm = .poisoned then .next (raiseError .stateMisuse s)
  else if s.fsm = .flushed then .next (raiseError .dataOverrun s)
  else pushSession pixel s

end Sys2Proof.Machine
end

