-- ==== Sys2Proof/Machine/Dispatch.lean ====
section
/-! DEFINITION. One arm per operation of spec/opcode_table.json. -/

namespace Sys2Proof.Machine

def exec (i : Instr) (s : State) : Host.Outcome State Fault Refusal :=
  match i with
  | .begin req quota => Sys2Proof.Machine.execBegin req quota s
  | .push pixel => Sys2Proof.Machine.execPush pixel s
  | .reset => Sys2Proof.Machine.execReset s
  | .dictLookup key => Sys2Proof.Machine.execDictLookup key s
  | .dictInsert key code => Sys2Proof.Machine.execDictInsert key code s
  | .dictClear => Sys2Proof.Machine.execDictClear s
  | .wcInit => Sys2Proof.Machine.execWcInit s
  | .wcAdvance => Sys2Proof.Machine.execWcAdvance s
  | .wcGrow => Sys2Proof.Machine.execWcGrow s
  | .pkEmitData code => Sys2Proof.Machine.execPkEmitData code s
  | .pkEmitSpecial code => Sys2Proof.Machine.execPkEmitSpecial code s
  | .pkFlush => Sys2Proof.Machine.execPkFlush s
  | .sbPut byte => Sys2Proof.Machine.execSbPut byte s
  | .sbTerminate => Sys2Proof.Machine.execSbTerminate s
  | .sinkWrite payload => Sys2Proof.Machine.execSinkWrite payload s

end Sys2Proof.Machine
end

