-- ==== Sys2Proof/Machine/Fetch.lean ====
section
/-!
DEFINITION. What the next step does: the request at an inner port if one is set, else the next thing of the command stream
(spec/20_memory.md R56), else nothing.
-/

namespace Sys2Proof.Machine

/-- What a step finds to do. -/
inductive Fetched where
  /-- Nothing is presented, or a port shows `op` 0b00 (R83 to R86, R216). -/
  | nothing
  /-- The reset input (R230). -/
  | hardReset
  /-- An operation. -/
  | run (i : Instr)
  /-- A command word with a reserved `OPC` (R88). -/
  | illegalCommand
  /-- A port word that is never generated (R86, R87). -/
  | neverGenerated (why : Reject)
  deriving DecidableEq, Repr

/-- A host command word: an operation or an illegal command (R80, R88). -/
def readCommand (w : BitVec 40) : Fetched :=
  match decodeCw w with
  | .ok i => .run i
  | .error _ => .illegalCommand

/-- A request at an inner port. -/
def readPort (w : PortWord) : Fetched :=
  match decodePort w with
  | .ok i => .run i
  | .error .noOperation => .nothing
  | .error r => .neverGenerated r

/-- What is next, and the state with it taken (R56: "in order, one at a time"). -/
def fetch (s : State) : Fetched × State :=
  match s.request with
  | some w => (readPort w, { s with request := none })
  | none =>
    match s.hostInput with
    | [] => (.nothing, s)
    | .hardReset :: rest => (.hardReset, { s with hostInput := rest })
    | .command w :: rest => (readCommand w, { s with hostInput := rest })

/-- An illegal command raises StateMisuse in every state (R88, R203). -/
def illegalCommand (s : State) : State := raiseError .stateMisuse s

/-- `s` with a word presented so that the next step takes it. -/
def present (word : Word) (s : State) : State :=
  match word with
  | .cw w => { s with request := none, hostInput := .command w :: s.hostInput }
  | .port w => { s with request := some w }

end Sys2Proof.Machine
end

