-- ==== Sys2Proof/Machine/Step.lean ====
section
/-!
DEFINITION. One step: one command of the host as one indivisible transition (spec/00_scope.md R6), one reset input, or one
request at an inner port; with nothing presented the core is idle and keeps its state (spec/60_exceptions.md R216).
-/

namespace Sys2Proof.Machine

/-- One step of the core, the only agent with a step (R7). -/
def step (s : State) : Host.Outcome State Fault Refusal :=
  match fetch s with
  | (.nothing, t) => .next t
  | (.hardReset, t) => .next (resetCore t)
  | (.run i, t) => exec i t
  | (.illegalCommand, t) => .next (illegalCommand t)
  | (.neverGenerated why, _) => .refused (.neverGenerated why)

/-- `s` with the word of an opcode-table row presented, so that the next step runs it (notes/assumptions/4.md). -/
def State.withFetchWord (s : State) (nbits w : Nat) : State :=
  match tableWord nbits w with
  | none => s
  | some word => present word s

end Sys2Proof.Machine
end

