-- ==== Sys2Proof/Machine/Organisation.lean ====
section
/-!
DEFINITION. The two organisations the dictionary may have, a CAM and a hashed SRAM (spec/40_dictionary.md R106 to R108),
beside the abstract map, as sequences of operations (R109). The machine uses the map; nothing of this file is state.
-/

namespace Sys2Proof.Machine.Organisation

/-- One operation of a sequence. An insert stores the next code in order (R103 (c)). -/
inductive DictOp where
  | clear
  | lookup (key : Key)
  | insert (key : Key)
  deriving DecidableEq, Repr

/-! ### The abstract map -/

/-- The answers of the map's lookups, in order; `first` is the code after a clear, `next` the code of the next insert. -/
def mapAnswers (first : Nat) : Store Code → Nat → List DictOp → List (Option Code)
  | _, _, [] => []
  | _, _, .clear :: rest => mapAnswers first [] first rest
  | d, next, .lookup key :: rest => storeGet d key.toNat :: mapAnswers first d next rest
  | d, next, .insert key :: rest => mapAnswers first (storePut d key.toNat (BitVec.ofNat 12 next)) (next + 1) rest

/-- The sequences the emitter can issue: a key is inserted only when absent and below the capacity (R103, R104). -/
def emitterIssues (first limit : Nat) : Store Code → Nat → List DictOp → Bool
  | _, _, [] => true
  | _, _, .clear :: rest => emitterIssues first limit [] first rest
  | d, next, .lookup _ :: rest => emitterIssues first limit d next rest
  | d, next, .insert key :: rest =>
    (storeGet d key.toNat).isNone && decide (next < limit) &&
      emitterIssues first limit (storePut d key.toNat (BitVec.ofNat 12 next)) (next + 1) rest

/-! ### CAM (R106) -/

/-- "row `i` holding a 20-bit key; row index = code value". -/
abbrev Cam := Vector Key 4096

/-- All rows `i` with `first <= i < next` are compared at once; at most one matches. -/
def camLookup (cam : Cam) (first next : Nat) (key : Key) : Option Code :=
  ((List.range 4096).find? (fun i => decide (first ≤ i ∧ i < next) && cam[i]? == some key)).map (BitVec.ofNat 12)

/-- "DICT.INSERT(key, `runningCode`) writes `key` to row `runningCode`". -/
def camInsert (cam : Cam) (next : Nat) (key : Key) : Cam := cam.setIfInBounds next key

/-- The CAM's answers; a clear is the reset of `next` alone. -/
def camAnswers (first : Nat) : Cam → Nat → List DictOp → List (Option Code)
  | _, _, [] => []
  | cam, _, .clear :: rest => camAnswers first cam first rest
  | cam, next, .lookup key :: rest => camLookup cam first next key :: camAnswers first cam next rest
  | cam, next, .insert key :: rest => camAnswers first (camInsert cam next key) (next + 1) rest

/-! ### Hashed SRAM (R107) -/

/-- The slots; `none` is a slot with `valid == 0`, so that no key value is reserved (R108). -/
abbrev Sram := List (Option (Key × Code))

/-- Every slot empty. -/
def sramEmpty : Sram := List.replicate Config.htSize none

/-- The first slot probed; the hash is in no source. -/
def probeStart (key : Key) : Nat := Config.hash key % Config.htSize

/-- Probe from slot `i` for at most `turns` slots: the first valid slot with the key, or a miss at an empty one. -/
def sramLookup (ram : Sram) (key : Key) : Nat → Nat → Option Code
  | 0, _ => none
  | turns + 1, i =>
    match ram[i]? with
    | some (some (k, c)) => if k = key then some c else sramLookup ram key turns ((i + 1) % Config.htSize)
    | some none => none
    | none => none

/-- Probe from slot `i` for the first empty slot and fill it. -/
def sramInsert (ram : Sram) (key : Key) (code : Code) : Nat → Nat → Sram
  | 0, _ => ram
  | turns + 1, i =>
    match ram[i]? with
    | some (some _) => sramInsert ram key code turns ((i + 1) % Config.htSize)
    | some none => ram.set i (some (key, code))
    | none => ram

/-- The SRAM's answers. -/
def sramAnswers (first : Nat) : Sram → Nat → List DictOp → List (Option Code)
  | _, _, [] => []
  | _, _, .clear :: rest => sramAnswers first sramEmpty first rest
  | ram, next, .lookup key :: rest =>
    sramLookup ram key Config.htSize (probeStart key) :: sramAnswers first ram next rest
  | ram, next, .insert key :: rest =>
    sramAnswers first (sramInsert ram key (BitVec.ofNat 12 next) Config.htSize (probeStart key)) (next + 1) rest

end Sys2Proof.Machine.Organisation
end

