-- ==== Sys2Proof/Machine/Script.lean ====
section
/-!
DEFINITION. The textual syntax of command scripts and its pseudo-instructions (spec/30_encoding.md R90, R91). The host
writes scripts with it; the core never sees the text, only the command words.
-/

namespace Sys2Proof.Machine.Script

/-- One line of a script: the three commands and the two pseudo-instructions. -/
inductive Line where
  | reset
  | begin (bpp quota : Nat)
  | push (pixel : Nat)
  | pushN (pixels : List Nat)
  | image (bpp : Nat) (pixels : List Nat)
  deriving DecidableEq, Repr

/-- `PUSH <p>`: the operand "must fit" 8 bits "or the line does not assemble" (R90). -/
def assemblePush (pixel : Nat) : Option Instr :=
  if pixel < 2 ^ 8 then some (.push (BitVec.ofNat 8 pixel)) else none

/-- `BEGIN <bpp>, <quota>`: 4 and 32 bits (R90). -/
def assembleBegin (bpp quota : Nat) : Option Instr :=
  if bpp < 2 ^ 4 ∧ quota < 2 ^ 32 then some (.begin (BitVec.ofNat 4 bpp) (BitVec.ofNat 32 quota)) else none

/-- The commands a line stands for (R90, R91). -/
def assemble : Line → Option (List Instr)
  | .reset => some [.reset]
  | .begin bpp quota => (assembleBegin bpp quota).map (fun i => [i])
  | .push pixel => (assemblePush pixel).map (fun i => [i])
  | .pushN pixels => pixels.mapM assemblePush
  | .image bpp pixels =>
    match assembleBegin bpp pixels.length, pixels.mapM assemblePush with
    | some i, some rest => some (i :: rest)
    | _, _ => none

/-- The command words of a list of commands, as the host presents them; the encoder sets ignored fields to 0 (R90). -/
def commandStream (commands : List Instr) : List HostInput :=
  commands.filterMap (fun i => match encode i with
    | .cw w => some (.command w)
    | .port _ => none)

/-! ### The text of a line -/

/-- The value of a digit in base 16; letters of either case. -/
def digit (c : Char) : Option Nat :=
  if '0' ≤ c ∧ c ≤ '9' then some (c.toNat - '0'.toNat)
  else if 'a' ≤ c ∧ c ≤ 'f' then some (c.toNat - 'a'.toNat + 10)
  else if 'A' ≤ c ∧ c ≤ 'F' then some (c.toNat - 'A'.toNat + 10)
  else none

/-- The value of a list of digits in a base. -/
def digits (base : Nat) : Nat → List Char → Option Nat
  | acc, [] => some acc
  | acc, c :: rest =>
    match digit c with
    | some d => if d < base then digits base (acc * base + d) rest else none
    | none => none

/-- "Operands are unsigned numbers, decimal or `0x` hexadecimal". -/
def number : List Char → Option Nat
  | [] => none
  | ['0', 'x'] => none
  | '0' :: 'x' :: rest => digits 16 0 rest
  | word => digits 10 0 word

/-- What of a line is assembled: nothing from `;` or from `=>` on. -/
def code : List Char → List Char
  | [] => []
  | ';' :: _ => []
  | '=' :: '>' :: _ => []
  | c :: rest => c :: code rest

/-- The words of a line; a comma and a colon are words of their own. `word` is the word being read, reversed. -/
def words : List Char → List Char → List (List Char)
  | word, [] => if word = [] then [] else [word.reverse]
  | word, c :: rest =>
    let before := if word = [] then [] else [word.reverse]
    if c = ' ' ∨ c = '\t' ∨ c = '\r' then before ++ words [] rest
    else if c = ',' ∨ c = ':' then before ++ [c] :: words [] rest
    else words (c :: word) rest

/-- Numbers separated by commas. -/
def numbers : List (List Char) → Option (List Nat)
  | [w] => (number w).map (fun n => [n])
  | w :: [','] :: rest =>
    match number w, numbers rest with
    | some n, some ns => some (n :: ns)
    | _, _ => none
  | _ => none

/-- One line of text; `some none` is a line without a command. -/
def parseLine (text : List Char) : Option (Option Line) :=
  match words [] (code text) with
  | [] => some none
  | [['R', 'E', 'S', 'E', 'T']] => some (some .reset)
  | ['B', 'E', 'G', 'I', 'N'] :: rest =>
    match numbers rest with
    | some [bpp, quota] => some (some (.begin bpp quota))
    | _ => none
  | [['P', 'U', 'S', 'H'], w] => (number w).map (fun n => some (.push n))
  | ['P', 'U', 'S', 'H', 'N'] :: rest => (numbers rest).map (fun ns => some (.pushN ns))
  | ['I', 'M', 'A', 'G', 'E'] :: w :: [':'] :: rest =>
    match number w, numbers rest with
    | some bpp, some ns => some (some (.image bpp ns))
    | _, _ => none
  | _ => none

end Sys2Proof.Machine.Script
end

