-- ==== Sys2Proof/Machine/Wire.lean ====
section
/-!
DEFINITION. The wire format (spec/30_encoding.md R70 to R79, spec/20_memory.md R57), said without the machine's registers:
what a code, a byte and a block are as bits and bytes, and the codes and blocks of one whole session.
-/

namespace Sys2Proof.Machine.Wire

/-! ### Bits and bytes -/

/-- The low `width` bits of a value, bit 0 first (R57, R72). -/
def valueBits (width value : Nat) : List Bool := (List.range width).map (fun i => value.testBit i)

/-- The bits of a list of bytes, each byte's bit 0 first (R57, R74). -/
def bytesBits (bytes : List Byte) : List Bool := bytes.flatMap (fun b => valueBits 8 b.toNat)

/-- The value of a list of bits, bit 0 first. -/
def bitsValue : List Bool → Nat
  | [] => 0
  | b :: rest => b.toNat + 2 * bitsValue rest

/-- The bit string cut into bytes, the last one completed with zero bits (R74). -/
def bitsBytes (bits : List Bool) : List Byte :=
  (List.range ((bits.length + 7) / 8)).map (fun n => BitVec.ofNat 8 (bitsValue ((bits.drop (8 * n)).take 8)))

/-! ### Blocks -/

/-- A SUBBLOCK: a length byte 1 to 255 and that many payload bytes (R75). -/
def isSubblock : List Byte → Bool
  | [] => false
  | len :: payload => len != 0 && payload.length == len.toNat

/-- The TERMINATOR (R76). -/
def isTerminator (bytes : List Byte) : Bool := bytes == [0x00]

/-- "Only two shapes occur" (R87). -/
def isTransaction (bytes : List Byte) : Bool := isSubblock bytes || isTerminator bytes

/-- A full block: "one length byte 0xFF followed by the 255 payload bytes" (R75, R180). -/
def isFullBlock (bytes : List Byte) : Bool := isSubblock bytes && bytes.length == 256

/-- `image_data := SUBBLOCK* TERMINATOR`, at least one SUBBLOCK, every one but the last full, each in one transaction
(R77). -/
def isImageData : List (List Byte) → Bool
  | [] => false
  | [_] => false
  | [last, term] => isSubblock last && isTerminator term
  | full :: next :: rest => isFullBlock full && isImageData (next :: rest)

/-- The SUBBLOCKs of a payload, 255 bytes to a block (R77, R185). `turns` bounds their number. -/
def subblocks : Nat → List Byte → List (List Byte)
  | 0, _ => []
  | _, [] => []
  | turns + 1, payload => frame (payload.take Config.sbMax) :: subblocks turns (payload.drop Config.sbMax)

/-- A session's transactions: the SUBBLOCKs of its payload and the TERMINATOR (R77). -/
def blocks (payload : List Byte) : List (List Byte) := subblocks payload.length payload ++ [[0x00]]

/-! ### Codes -/

/-- The width of the next code after `k` data codes since a clear: the smallest `W` in `bpp + 1 .. LZ_BITS` with
`2^W >= 2^bpp + 2 + k`, or LZ_BITS if there is none (R79). -/
def widthAfter (lzBits bpp k : Nat) : Nat :=
  ((List.range' (bpp + 1) (lzBits - bpp)).find? (fun w => decide (2 ^ bpp + 2 + k ≤ 2 ^ w))).getD lzBits

/-- The codes that follow the first pixel, each with its width. `entries` are the strings since the last clear, the newest
first: string number `n` has the code `2^bpp + 2 + n` (R73); as many data codes as strings have been emitted since then
(R127 to R131). -/
def codesFrom (p : Config.Params) (bpp : Nat) : Nat → List ((Nat × Nat) × Nat) → List Nat → List (Nat × Nat)
  | held, entries, [] =>
    [(held, widthAfter p.lzBits bpp entries.length), (2 ^ bpp + 1, widthAfter p.lzBits bpp (entries.length + 1))]
  | held, entries, pixel :: rest =>
    match entries.lookup (held, pixel) with
    | some code => codesFrom p bpp code entries rest
    | none =>
      (held, widthAfter p.lzBits bpp entries.length) ::
        (if 2 ^ bpp + 2 + entries.length = p.lzMaxCode then
          (2 ^ bpp, widthAfter p.lzBits bpp (entries.length + 1)) :: codesFrom p bpp pixel [] rest
        else codesFrom p bpp pixel (((held, pixel), 2 ^ bpp + 2 + entries.length) :: entries) rest)

/-- The codes of a session of masked pixels: `clearCode`, the data codes, `eofCode` (R77, R125). -/
def sessionCodes (p : Config.Params) (bpp : Nat) : List Nat → List (Nat × Nat)
  | [] => []
  | first :: rest => (2 ^ bpp, bpp + 1) :: codesFrom p bpp first [] rest

/-- The payload of a session: its codes as one bit string, cut into bytes (R57, R72, R74). -/
def sessionPayload (p : Config.Params) (bpp : Nat) (pixels : List Nat) : List Byte :=
  bitsBytes ((sessionCodes p bpp pixels).flatMap (fun c => valueBits c.2 c.1))

/-- What one successful session writes to the sink, transaction by transaction (R77). -/
def sessionBlocks (p : Config.Params) (bpp : Nat) (pixels : List Nat) : List (List Byte) :=
  blocks (sessionPayload p bpp pixels)

/-! ### The machine's output as payload and bits -/

/-- The payload of a list of transactions: each without its length byte (R75). -/
def tracePayload (trace : List (List Byte × Config.Answer)) : List Byte := trace.flatMap (fun e => e.1.drop 1)

/-- Every payload byte the framer has taken: those written, then those held (R33, R185). -/
def payloadSoFar (s : State) : List Byte := tracePayload s.trace ++ heldBytes s

/-- The bit string so far: the bytes the framer has taken, then the valid bits of the accumulator (R33, R57). -/
def bitsSoFar (s : State) : List Bool :=
  bytesBits (payloadSoFar s) ++ valueBits s.shiftBits.toNat s.shiftValue.toNat

end Sys2Proof.Machine.Wire
end

