-- ==== Sys2Proof/Safety.lean ====
section
/-!
DEFINITION. What counts as a legal state and a safe run, in the terms the statements use: the invariants of
spec/10_state.md, the host's sequences of commands, the end of a run (spec/70_reset_and_hazards.md R244), and which parts
of a state an operation leaves alone.
-/

namespace Sys2Proof.Machine

/-! ### Legal states -/

/-- A data code of the session: a pixel value or a string code, no special code (R12, R25, R135). -/
abbrev isDataCode (s : State) (c : Nat) : Prop := c < 2 ^ s.bpp.toNat ∨ s.eofCode.toNat + 1 ≤ c

/-- The session registers of a session that is open or complete (R21). -/
structure SessionRegs (s : State) : Prop where
  bppLow : 2 ≤ s.bpp.toNat
  bppHigh : s.bpp.toNat ≤ 8
  clearIs : s.clearCode.toNat = 2 ^ s.bpp.toNat
  eofIs : s.eofCode.toNat = 2 ^ s.bpp.toNat + 1

/-- The width controller between commands of an open session (R22, R155). -/
structure WidthRegs (s : State) : Prop where
  codeLow : s.eofCode.toNat + 1 ≤ s.runningCode.toNat
  codeHigh : s.runningCode.toNat ≤ s.params.lzMaxCode
  threshold : s.maxCode1.toNat = 2 ^ s.runningBits.toNat
  bitsLow : s.bpp.toNat + 1 ≤ s.runningBits.toNat
  bitsHigh : s.runningBits.toNat ≤ s.params.lzBits
  codeFits : s.runningCode.toNat ≤ s.maxCode1.toNat
  bitsLeast : s.runningBits.toNat = s.bpp.toNat + 1 ∨ 2 ^ (s.runningBits.toNat - 1) < s.runningCode.toNat

/-- The accumulator between operations (R27, R164). -/
structure PackerRegs (s : State) : Prop where
  bitsHigh : s.shiftBits.toNat ≤ 7
  valueFits : s.shiftValue.toNat < 2 ^ s.shiftBits.toNat

/-- Every slot up to `sbCount` has been written in the current block (R54). -/
abbrev SlotsWritten (s : State) : Prop :=
  ∀ i, 1 ≤ i → i ≤ s.sbCount.toNat → (storeGet s.sbData i).isSome = true

/-- The dictionary between commands of an open session (R29). -/
structure DictEntries (s : State) : Prop where
  size : s.dict.length = s.runningCode.toNat - (s.eofCode.toNat + 1)
  codes : ∀ e ∈ s.dict, s.eofCode.toNat + 1 ≤ e.2.toNat ∧ e.2.toNat < s.runningCode.toNat
  codesOnce : s.dict.Pairwise (fun x y => x.2 ≠ y.2)
  keys : ∀ e ∈ s.dict, e.1 % 256 < 2 ^ s.bpp.toNat ∧ isDataCode s (e.1 / 256) ∧ e.1 / 256 < e.2.toNat

/-- What holds of an open session between commands. -/
structure SessionOpen (s : State) : Prop where
  regs : SessionRegs s
  quotaLeft : 0 < s.quota.toNat
  width : WidthRegs s
  packer : PackerRegs s
  slots : SlotsWritten s
  entries : DictEntries s

/-- The prefix in MATCHING (R25, R135). -/
structure PrefixHeld (s : State) : Prop where
  dataCode : isDataCode s s.pendingPrefix.toNat
  assigned : s.pendingPrefix.toNat < s.runningCode.toNat

/-- What holds of a completed session (R23, R26, R63). -/
structure SessionDone (s : State) : Prop where
  regs : SessionRegs s
  quotaSpent : s.quota = 0
  accEmpty : s.shiftValue = 0 ∧ s.shiftBits = 0
  bufferEmpty : s.sbCount = 0

/-- The invariant of the core between commands. -/
structure Inv (s : State) : Prop where
  noRequest : s.request = none
  params : s.params.Valid
  memory : Memory.wf s
  causeIff : s.cause ≠ none ↔ s.fsm = .poisoned
  opened : s.fsm = .awaitFirst ∨ s.fsm = .matching → SessionOpen s
  held : s.fsm = .matching → PrefixHeld s
  completed : s.fsm = .flushed → SessionDone s

/-! ### The output -/

/-- Every transaction is a SUBBLOCK or the TERMINATOR (R87, R184). -/
abbrev TraceFramed (s : State) : Prop := ∀ e ∈ s.trace, Wire.isTransaction e.1 = true

/-- While every answer has been `ok`, the stream is the bytes of the transactions, in order (R55, R62). -/
abbrev StreamFollows (s : State) : Prop :=
  (∀ e ∈ s.trace, e.2 = .ok) → s.stream = s.trace.flatMap (fun e => e.1)

/-- The sink answers `ok` to the next `n` transactions. -/
abbrev answersOk (n : Nat) (s : State) : Prop := s.sinkScript.take n = List.replicate n .ok

/-! ### Commands in sequence -/

/-- Commands one after another, stopping at a fault or a refusal. -/
def execAll : List Instr → State → Host.Outcome State Fault Refusal
  | [], s => .next s
  | i :: rest, s =>
    match exec i s with
    | .next t => execAll rest t
    | .fault f => .fault f
    | .refused r => .refused r

/-- The host's commands for one image: BEGIN, then one PUSH for each pixel (R91, R233). -/
def sessionCommands (req : BitVec 4) (pixels : List Byte) : List Instr :=
  .begin req (BitVec.ofNat 32 pixels.length) :: pixels.map .push

/-- An operation the host commands; the others are inner operations (R6). -/
def isCommand : Instr → Bool
  | .begin _ _ | .push _ | .reset => true
  | .dictLookup _ | .dictInsert _ _ | .dictClear | .wcInit | .wcAdvance | .wcGrow | .pkEmitData _ | .pkEmitSpecial _
  | .pkFlush | .sbPut _ | .sbTerminate | .sinkWrite _ => false

/-! ### The end of a run (R244) -/

/-- It "ends well". -/
def endsWell (s : State) : Bool :=
  (s.fsm == .idle || s.fsm == .flushed) && s.trace.all (fun e => e.2 == .ok) && s.hostInput.isEmpty

/-- It "ends badly". -/
def endsBadly (s : State) : Bool := isPoisoned s

/-- It is "not ended": a session is open. -/
def notEnded (s : State) : Bool := s.fsm == .awaitFirst || s.fsm == .matching

/-! ### What an operation leaves alone -/

/-- S0, S1. -/
abbrev sameControl (s t : State) : Prop := t.fsm = s.fsm ∧ t.cause = s.cause

/-- S2 to S6. -/
abbrev sameSession (s t : State) : Prop :=
  t.bpp = s.bpp ∧ t.clearCode = s.clearCode ∧ t.eofCode = s.eofCode ∧ t.quota = s.quota ∧
    t.pendingPrefix = s.pendingPrefix

/-- S7 to S9. -/
abbrev sameWidth (s t : State) : Prop :=
  t.runningCode = s.runningCode ∧ t.runningBits = s.runningBits ∧ t.maxCode1 = s.maxCode1

/-- S10. -/
abbrev samePacker (s t : State) : Prop := t.shiftValue = s.shiftValue ∧ t.shiftBits = s.shiftBits

/-- S11, the buffer through its read: every slot, 0 (the count) among them. -/
abbrev sameFramer (s t : State) : Prop := ∀ i : BitVec 8, bufRead t i = bufRead s i

/-- S12, the dictionary through its read: every key. -/
abbrev sameDict (s t : State) : Prop := ∀ key : Key, dictRead t key = dictRead s key

/-- The sink has been given nothing. -/
abbrev sameSink (s t : State) : Prop := t.sinkScript = s.sinkScript ∧ t.stream = s.stream ∧ t.trace = s.trace

/-- The host's side, but for the response: what it presents, and the parameters. -/
abbrev sameHost (s t : State) : Prop := t.hostInput = s.hostInput ∧ t.request = s.request ∧ t.params = s.params

/-- Nothing but the answer of the operation and the draws has changed. -/
abbrev sameCore (s t : State) : Prop :=
  sameControl s t ∧ sameSession s t ∧ sameWidth s t ∧ samePacker s t ∧ sameFramer s t ∧ sameDict s t ∧ sameSink s t ∧
    sameHost s t

/-- The answers of the ports: the response word and the dictionary's reply. -/
abbrev sameReplies (s t : State) : Prop := t.response = s.response ∧ t.dictReply = s.dictReply

/-! ### Errors -/

/-- The status field of the last response (R82). -/
abbrev statusIs (s : State) (status : Option ErrorKind) : Prop :=
  s.response.map (fun r => r.extractLsb' 0 3) = some (statusCode status)

/-- The control state and the response after `raise k` in `s` (R206). -/
abbrev poisonedBy (k : ErrorKind) (s t : State) : Prop :=
  t.fsm = .poisoned ∧ t.cause = (if s.fsm = .poisoned then s.cause else some k) ∧
    t.response = some (0#5 ++ statusCode (some k))

/-- A command refused before any state is written: poisoned, and every other item keeps its value (R206, R207). -/
abbrev refusedBy (k : ErrorKind) (s t : State) : Prop :=
  poisonedBy k s t ∧ sameSession s t ∧ sameWidth s t ∧ samePacker s t ∧ sameFramer s t ∧ sameDict s t ∧ sameSink s t ∧
    sameHost s t ∧ t.dictReply = s.dictReply

/-- A command word whose `OPC` is reserved (R88). -/
abbrev isReserved (w : BitVec 40) : Prop :=
  w.extractLsb' 36 4 ≠ 0x1#4 ∧ w.extractLsb' 36 4 ≠ 0x2#4 ∧ w.extractLsb' 36 4 ≠ 0x3#4

/-! ### Widths -/

/-- The width WC.GROW leaves (R153, R154). -/
abbrev grownBits (s : State) : Nat :=
  if s.maxCode1.toNat ≤ s.runningCode.toNat ∧ s.runningBits.toNat < s.params.lzBits then s.runningBits.toNat + 1
  else s.runningBits.toNat

/-! ### What the spec specifies of a state -/

/-- Two states agree on everything the spec specifies in their control state, up to the bytes a failed write may have left
in the stream; the unspecified items may differ (R25, R28, R29, R34, R206). -/
structure Agree (s t : State) : Prop where
  fsm : s.fsm = t.fsm
  cause : s.cause = t.cause
  response : s.response = t.response
  trace : s.trace = t.trace
  script : s.sinkScript = t.sinkScript
  input : s.hostInput = t.hostInput
  params : s.params = t.params
  session : showsBpp s = true → s.bpp = t.bpp ∧ s.clearCode = t.clearCode ∧ s.eofCode = t.eofCode ∧ s.quota = t.quota
  opened : s.fsm = .awaitFirst ∨ s.fsm = .matching →
    sameWidth s t ∧ samePacker s t ∧ s.sbCount = t.sbCount ∧ heldBytes s = heldBytes t ∧ s.dict = t.dict
  held : s.fsm = .matching → s.pendingPrefix = t.pendingPrefix

end Sys2Proof.Machine
end

