-- ==== Sys2Proof/Certificates/Slice0/Obligations.lean ====
section
/-!
DEFINITION. The statements for the provers, each about the machine and each with the rules of spec/ it rests on.
-/

open Sys2Proof Sys2Proof.Machine

/-! ### Encodings and the step -/

/-- R80, R83 to R87, R89: no bit of an operand is lost between the encoder and the decoder, for every operation. -/
def Obligations.EncodedInstructionDecodes : Prop :=
  ∀ i : Instr, wellFormed i = true → decode (encode i) = .ok i

/-- Words written out in the spec: V-H2, V-H8, V-H11, V-H21, V-D1, V-D3, V-D4, R85, R86, R87. -/
def Obligations.SpecWordsDecode : Prop :=
  decode (.cw 0x1200000004) = .ok (.begin 2 4) ∧
  decode (.cw 0x18FFFFFFFF) = .ok (.begin 8 4294967295) ∧
  decode (.cw 0x20000000FD) = .ok (.push 0xFD) ∧
  decode (.cw 0x3FFFFFFFFF) = .ok .reset ∧
  decode (.port (.dw 0x300000000)) = .ok .dictClear ∧
  decode (.port (.dw 0x200000006)) = .ok (.dictInsert 0x00000 6) ∧
  decode (.port (.dw 0x100000000)) = .ok (.dictLookup 0x00000) ∧
  decode (.port (.pw 0x1006)) = .ok (.pkEmitData 6) ∧
  decode (.port (.pw 0x2100)) = .ok (.pkEmitSpecial 256) ∧
  decode (.port (.fw 0x184)) = .ok (.sbPut 0x84) ∧
  decode (.port (.sw [0x02, 0x84, 0x51])) = .ok (.sinkWrite [0x84, 0x51])

/-- R84, whole: the four values of the width controller's request; it carries no operand, and WC.INIT reads `bpp` and
`eofCode` alone (where its results fit their registers, log 3). -/
def Obligations.WidthRequestWords : Prop :=
  decode (.port (.ww 0b00)) = .error .noOperation ∧ decode (.port (.ww 0b01)) = .ok .wcInit ∧
  decode (.port (.ww 0b10)) = .ok .wcAdvance ∧ decode (.port (.ww 0b11)) = .ok .wcGrow ∧
  ∀ s t u v : State, exec .wcInit s = .next u → exec .wcInit t = .next v → s.bpp = t.bpp → s.eofCode = t.eofCode →
    s.bpp.toNat < 12 → sameWidth u v

/-- R80, R83, R85, R86, R88: ignored fields may hold anything and have no effect. -/
def Obligations.IgnoredFieldsHaveNoEffect : Prop :=
  (∀ (junk : BitVec 28) (pixel : Byte), decode (.cw (0x2#4 ++ junk ++ pixel)) = .ok (.push pixel)) ∧
  (∀ junk : BitVec 36, decode (.cw (0x3#4 ++ junk)) = .ok .reset) ∧
  (∀ (key : Key) (junk : BitVec 12), decode (.port (.dw (0b01#2 ++ key ++ junk))) = .ok (.dictLookup key)) ∧
  (∀ junk : BitVec 32, decode (.port (.dw (0b11#2 ++ junk))) = .ok .dictClear) ∧
  (∀ junk : BitVec 12, decode (.port (.pw (0b11#2 ++ junk))) = .ok .pkFlush) ∧
  (∀ junk : BitVec 8, decode (.port (.fw (0b10#2 ++ junk))) = .ok .sbTerminate)

/-- R6, R56: a step takes the next command word of the host, or the request at an inner port (MODEL, log 4), and is exec of
the decoded instruction; nothing else happens around it. With nothing presented the core keeps all its state (R216). -/
def Obligations.StepRunsDecodedInstruction : Prop :=
  (∀ (s : State) (w : BitVec 40) (rest : List HostInput) (i : Instr), s.request = none →
    s.hostInput = .command w :: rest → decode (.cw w) = .ok i → step s = exec i { s with hostInput := rest }) ∧
  (∀ (s : State) (w : PortWord) (i : Instr), s.request = some w →
    decode (.port w) = .ok i → step s = exec i { s with request := none }) ∧
  (∀ s : State, s.request = none → s.hostInput = [] → step s = .next s)

/-- R88, R203 (f), R206: a reserved opcode raises StateMisuse in every state and writes nothing. -/
def Obligations.ReservedOpcodePoisons : Prop :=
  ∀ (s : State) (w : BitVec 40) (rest : List HostInput), s.request = none → s.hostInput = .command w :: rest →
    isReserved w → ∃ t, step s = .next t ∧ refusedBy .stateMisuse { s with hostInput := rest } t

/-- R230: the reset input between commands does what RESET does, but for the response. -/
def Obligations.HardwareResetIsResetWithoutResponse : Prop :=
  ∀ (s : State) (rest : List HostInput), s.request = none → s.hostInput = .hardReset :: rest →
    ∃ t u, step s = .next t ∧ exec .reset { s with hostInput := rest } = .next u ∧
      t.fsm = .idle ∧ t.cause = none ∧ t.response = s.response ∧ u.response = some 0x00 ∧
      u = { t with response := some 0x00 }

/-- R32, R231: the machine right after reset: IDLE, no error, every flag false, nothing written. -/
def Obligations.ResetStateIsIdle : Prop :=
  State.reset.fsm = .idle ∧ State.reset.cause = none ∧ isAwaitingFirst State.reset = false ∧
  isDone State.reset = false ∧ isPoisoned State.reset = false ∧ State.reset.trace = [] ∧ State.reset.stream = []

/-! ### RESET and BEGIN -/

/-- R122: RESET, in every state and whatever its ignored bits hold. -/
def Obligations.ResetReturnsToIdle : Prop :=
  (∀ ignored : BitVec 36, decode (.cw (0x3#4 ++ ignored)) = .ok .reset) ∧
  ∀ s : State, ∃ t, exec .reset s = .next t ∧ t.fsm = .idle ∧ t.cause = none ∧ t.response = some 0x00 ∧
    isAwaitingFirst t = false ∧ isDone t = false ∧ isPoisoned t = false ∧
    sameSink s t ∧ sameHost s t ∧ t.dictReply = s.dictReply

/-- R123: the state after a successful BEGIN, register by register, and its frame. -/
def Obligations.BeginOpensSession : Prop :=
  ∀ (req : BitVec 4) (quota : BitVec 32) (s : State), s.fsm = .idle ∨ s.fsm = .flushed →
    req.toNat ≤ 8 → quota ≠ 0 → ∀ b, b = max req.toNat 2 →
    ∃ t, exec (.begin req quota) s = .next t ∧ t.fsm = .awaitFirst ∧ t.cause = s.cause ∧
      t.bpp.toNat = b ∧ t.clearCode.toNat = 2 ^ b ∧ t.eofCode.toNat = 2 ^ b + 1 ∧
      (32 ≤ s.params.quotaBits → t.quota = quota) ∧
      t.runningCode.toNat = 2 ^ b + 2 ∧ t.runningBits.toNat = b + 1 ∧ t.maxCode1.toNat = 2 ^ (b + 1) ∧
      (∀ key, dictRead t key = none) ∧
      t.shiftBits.toNat = (b + 1) % 8 ∧ t.shiftValue.toNat = 2 ^ b / 2 ^ (8 * ((b + 1) / 8)) ∧
      t.sbCount.toNat = (b + 1) / 8 ∧
      heldBytes t = (if b = 7 then [0x80] else if b = 8 then [0x00] else []) ∧
      t.response = some (BitVec.ofNat 8 (16 * b)) ∧ sameSink s t ∧ sameHost s t ∧ t.dictReply = s.dictReply

/-- R124: the arguments 0 and 1 behave exactly as 2; the clamped value is the session's `bpp`, is what the response
reports, and is what the next PUSH masks with. -/
def Obligations.BeginClampsSmallPalettes : Prop :=
  (∀ (quota : BitVec 32) (s : State), exec (.begin 0 quota) s = exec (.begin 2 quota) s ∧
    exec (.begin 1 quota) s = exec (.begin 2 quota) s) ∧
  (∀ (req : BitVec 4) (quota : BitVec 32) (s : State), s.fsm = .idle ∨ s.fsm = .flushed → req.toNat ≤ 8 → quota ≠ 0 →
    ∃ t, exec (.begin req quota) s = .next t ∧ t.bpp.toNat = max req.toNat 2 ∧ t.response = some (t.bpp ++ 0#4) ∧
      ∀ pixel : Byte, (maskPixel t.bpp pixel).toNat = pixel.toNat % 2 ^ max req.toNat 2 ∧
        exec (.push pixel) t = exec (.push (maskPixel t.bpp pixel)) t)

/-- R123, R203, R206, R207: BEGIN out of turn or with an illegal operand. -/
def Obligations.BeginRefusedOutOfTurn : Prop :=
  ∀ (req : BitVec 4) (quota : BitVec 32) (s : State),
    (s.fsm ≠ .idle ∧ s.fsm ≠ .flushed) ∨ 8 < req.toNat ∨ quota = 0 →
    ∃ t, exec (.begin req quota) s = .next t ∧ refusedBy .stateMisuse s t

/-! ### PUSH -/

/-- R125, R202, R203, R206, R207: PUSH with no session, with a completed one, and while poisoned. -/
def Obligations.PushRefusedOutOfTurn : Prop :=
  ∀ (pixel : Byte) (s : State),
    (s.fsm = .idle ∨ s.fsm = .poisoned → ∃ t, exec (.push pixel) s = .next t ∧ refusedBy .stateMisuse s t) ∧
    (s.fsm = .flushed → ∃ t, exec (.push pixel) s = .next t ∧ refusedBy .dataOverrun s t)

/-- R81, R125, R205: only the low `bpp` bits of the operand matter, and they are never an error. -/
def Obligations.PushMasksPixel : Prop :=
  ∀ (pixel : Byte) (s : State), (maskPixel s.bpp pixel).toNat = pixel.toNat % 2 ^ s.bpp.toNat ∧
    exec (.push pixel) s = exec (.push (maskPixel s.bpp pixel)) s

/-- R126: the first pixel becomes the prefix; no code is emitted for it alone. -/
def Obligations.PushFirstPixelBecomesPrefix : Prop :=
  ∀ (pixel : Byte) (s : State), s.fsm = .awaitFirst → 1 < s.quota.toNat →
    ∃ t, exec (.push pixel) s = .next t ∧ t.fsm = .matching ∧ t.cause = s.cause ∧
      t.pendingPrefix.toNat = pixel.toNat % 2 ^ s.bpp.toNat ∧ t.quota.toNat + 1 = s.quota.toNat ∧
      t.bpp = s.bpp ∧ t.clearCode = s.clearCode ∧ t.eofCode = s.eofCode ∧ sameWidth s t ∧ samePacker s t ∧
      sameFramer s t ∧ sameDict s t ∧ sameSink s t ∧ sameHost s t ∧ t.dictReply = s.dictReply ∧
      t.response = some (s.bpp ++ 0#4)

/-- R127: a hit extends the match; only the prefix and the quota change. -/
def Obligations.PushHitExtendsMatch : Prop :=
  ∀ (pixel : Byte) (s : State) (c : Code), s.fsm = .matching → 1 < s.quota.toNat →
    dictRead s (keyOf s.pendingPrefix (maskPixel s.bpp pixel)) = some c →
    ∃ t, exec (.push pixel) s = .next t ∧ t.pendingPrefix = c ∧ t.quota.toNat + 1 = s.quota.toNat ∧
      sameControl s t ∧ t.bpp = s.bpp ∧ t.clearCode = s.clearCode ∧ t.eofCode = s.eofCode ∧ sameWidth s t ∧
      samePacker s t ∧ sameFramer s t ∧ sameDict s t ∧ sameSink s t ∧ sameHost s t ∧ t.dictReply = s.dictReply ∧
      t.response = some (s.bpp ++ 0#4)

/-- R128, R130, R153: an ordinary miss emits the old prefix at the old width, restarts the match and inserts the key formed
before. -/
def Obligations.PushOrdinaryMissInserts : Prop :=
  ∀ (pixel : Byte) (s : State) (key : Key), Inv s → s.fsm = .matching → 1 < s.quota.toNat →
    key = keyOf s.pendingPrefix (maskPixel s.bpp pixel) → dictRead s key = none →
    s.runningCode.toNat ≠ s.params.lzMaxCode → answersOk 1 s →
    ∃ t, exec (.push pixel) s = .next t ∧ sameControl s t ∧
      t.pendingPrefix.toNat = pixel.toNat % 2 ^ s.bpp.toNat ∧ t.quota.toNat + 1 = s.quota.toNat ∧
      t.bpp = s.bpp ∧ t.clearCode = s.clearCode ∧ t.eofCode = s.eofCode ∧
      t.runningCode.toNat = s.runningCode.toNat + 1 ∧ t.runningBits.toNat = grownBits s ∧
      t.maxCode1.toNat = 2 ^ grownBits s ∧
      dictRead t key = some (BitVec.ofNat 12 s.runningCode.toNat) ∧
      (∀ other, other ≠ key → dictRead t other = dictRead s other) ∧
      Wire.bitsSoFar t = Wire.bitsSoFar s ++ Wire.valueBits s.runningBits.toNat s.pendingPrefix.toNat ∧
      sameHost s t ∧ t.dictReply = s.dictReply ∧ t.response = some (s.bpp ++ 0#4)

/-- R128, R129: a saturated miss emits the old prefix, then `clearCode` before the reset of the width, and inserts
nothing. -/
def Obligations.PushSaturatedMissClears : Prop :=
  ∀ (pixel : Byte) (s : State), Inv s → s.fsm = .matching → 1 < s.quota.toNat →
    dictRead s (keyOf s.pendingPrefix (maskPixel s.bpp pixel)) = none →
    s.runningCode.toNat = s.params.lzMaxCode → answersOk 1 s →
    ∃ t, exec (.push pixel) s = .next t ∧ sameControl s t ∧
      t.pendingPrefix.toNat = pixel.toNat % 2 ^ s.bpp.toNat ∧ t.quota.toNat + 1 = s.quota.toNat ∧
      t.bpp = s.bpp ∧ t.clearCode = s.clearCode ∧ t.eofCode = s.eofCode ∧
      t.runningCode.toNat = s.eofCode.toNat + 1 ∧ t.runningBits.toNat = s.bpp.toNat + 1 ∧
      t.maxCode1.toNat = 2 ^ (s.bpp.toNat + 1) ∧ (∀ key, dictRead t key = none) ∧
      Wire.bitsSoFar t = Wire.bitsSoFar s ++ Wire.valueBits s.runningBits.toNat s.pendingPrefix.toNat ++
        Wire.valueBits (grownBits s) s.clearCode.toNat ∧
      sameHost s t ∧ t.dictReply = s.dictReply ∧ t.response = some (s.bpp ++ 0#4)

/-- R63, R77, R131, R188: the PUSH that spends the quota completes the session: nothing stays in the core, and its
transactions are at most one full SUBBLOCK, the last SUBBLOCK and the TERMINATOR. -/
def Obligations.PushLastPixelCompletesSession : Prop :=
  ∀ (pixel : Byte) (s : State), Inv s → s.fsm = .awaitFirst ∨ s.fsm = .matching → s.quota = 1 → answersOk 3 s →
    ∃ t w, exec (.push pixel) s = .next t ∧ t.fsm = .flushed ∧ t.cause = none ∧ t.quota = 0 ∧
      t.shiftValue = 0 ∧ t.shiftBits = 0 ∧ t.sbCount = 0 ∧
      t.trace = s.trace ++ w.map (fun b => (b, .ok)) ∧ t.stream = s.stream ++ w.flatten ∧
      Wire.isImageData w = true ∧ w.length ≤ 3 ∧
      t.bpp = s.bpp ∧ t.clearCode = s.clearCode ∧ t.eofCode = s.eofCode ∧ sameHost s t ∧
      t.dictReply = s.dictReply ∧ t.response = some (s.bpp ++ 0b1000#4)

/-- R187, R201, R206: where a PUSH of an open session is poisoned, a sink write has failed, and nothing is written after
it. -/
def Obligations.PushPoisonedOnlyBySinkFailure : Prop :=
  ∀ (pixel : Byte) (s t : State), Inv s → s.fsm = .awaitFirst ∨ s.fsm = .matching →
    exec (.push pixel) s = .next t → t.fsm = .poisoned →
    t.cause = some .sinkWriteFailure ∧ t.response = some 0x01 ∧
      ∃ (w : List (List Byte)) (failed : List Byte),
        t.trace = s.trace ++ w.map (fun b => (b, .ok)) ++ [(failed, .fail)] ∧ sameHost s t

/-- R134: the sink writes of one PUSH of an open session, by its end. -/
def Obligations.PushOutputBounds : Prop :=
  ∀ (pixel : Byte) (s t : State), Inv s → s.fsm = .awaitFirst ∨ s.fsm = .matching →
    exec (.push pixel) s = .next t →
    ∃ w, t.trace = s.trace ++ w ∧ w.length ≤ 3 ∧ (1 < s.quota.toNat → w.length ≤ 1) ∧
      (t.fsm = .flushed → 2 ≤ w.length)

/-- R151 (the quoted property): within a session the width never falls except after a clear, where it is `bpp + 1`. -/
def Obligations.WidthFallsOnlyAtClear : Prop :=
  ∀ (pixel : Byte) (s t : State), Inv s → s.fsm = .matching → exec (.push pixel) s = .next t → t.fsm = .matching →
    s.runningBits.toNat ≤ t.runningBits.toNat ∨
      (t.runningBits.toNat = s.bpp.toNat + 1 ∧ t.runningCode.toNat = s.eofCode.toNat + 1 ∧ t.dict = [])

/-! ### The machine's states -/

/-- R121, whole: the state and the status after every command in every state. -/
def Obligations.TransitionTable : Prop :=
  ∀ s : State, Inv s →
    (∃ t, exec .reset s = .next t ∧ t.fsm = .idle ∧ statusIs t none) ∧
    (∀ (req : BitVec 4) (quota : BitVec 32), ∃ t, exec (.begin req quota) s = .next t ∧
      if legalBegin req quota = true ∧ (s.fsm = .idle ∨ s.fsm = .flushed) then t.fsm = .awaitFirst ∧ statusIs t none
      else t.fsm = .poisoned ∧ statusIs t (some .stateMisuse)) ∧
    (∀ pixel : Byte, ∃ t, exec (.push pixel) s = .next t ∧
      match s.fsm with
      | .idle | .poisoned => t.fsm = .poisoned ∧ statusIs t (some .stateMisuse)
      | .flushed => t.fsm = .poisoned ∧ statusIs t (some .dataOverrun)
      | .awaitFirst | .matching =>
        if ∃ e ∈ t.trace.drop s.trace.length, e.2 = .fail then t.fsm = .poisoned ∧ statusIs t (some .sinkWriteFailure)
        else if s.quota = 1 then t.fsm = .flushed ∧ statusIs t none
        else t.fsm = .matching ∧ statusIs t none) ∧
    (∀ (w : BitVec 40) (rest : List HostInput), isReserved w → s.hostInput = .command w :: rest →
      ∃ t, step s = .next t ∧ t.fsm = .poisoned ∧ statusIs t (some .stateMisuse))

/-- R209, R211: in POISONED every command but RESET returns StateMisuse, changes nothing and writes nothing. -/
def Obligations.PoisonedRefusesAllButReset : Prop :=
  ∀ s : State, s.fsm = .poisoned →
    (∀ req quota, exec (.begin req quota) s = .next { s with response := some 0x03 }) ∧
    (∀ pixel, exec (.push pixel) s = .next { s with response := some 0x03 }) ∧
    (∀ w rest, s.request = none → s.hostInput = .command w :: rest → isReserved w →
      step s = .next { s with hostInput := rest, response := some 0x03 })

/-- R134, R208: of the host's commands only PUSH writes to the sink, in every state, and no command or reset input writes
in POISONED or leaves it but for IDLE. -/
def Obligations.NoWriteWithoutPush : Prop :=
  (∀ (i : Instr) (s t : State), isCommand i = true → (∀ pixel, i ≠ .push pixel) → exec i s = .next t → sameSink s t) ∧
  (∀ s t : State, s.request = none → s.fsm = .poisoned → step s = .next t →
    sameSink s t ∧ (t.fsm = .poisoned ∨ t.fsm = .idle))

/-- R55, R62: the output only grows, in order; no step takes back or changes what the sink has been given, RESET and the
reset input included (log 9: they keep trace and stream). MODEL: no step changes the parameters (log 6), and none leaves a
port request behind (log 4). -/
def Obligations.OutputOnlyGrows : Prop :=
  ∀ s t : State, step s = .next t →
    (∃ w, t.trace = s.trace ++ w) ∧ (∃ bytes, t.stream = s.stream ++ bytes) ∧ t.params = s.params ∧ t.request = none

/-- R204, whole: AllocationFailure is never raised: no step writes it to `cause` or answers it. -/
def Obligations.AllocationFailureNeverRaised : Prop :=
  ∀ s t : State, step s = .next t →
    (t.cause = some .allocationFailure → s.cause = some .allocationFailure) ∧
      (statusIs t (some .allocationFailure) → t.response = s.response)

/-! ### Invariants -/

/-- The invariant, the framing and the stream hold after reset, for the registers the spec gives a value and for the
model's choices of notes/assumptions/1.md. -/
def Obligations.InvariantsHoldAtReset : Prop :=
  Inv State.reset ∧ TraceFramed State.reset ∧ StreamFollows State.reset

/-- R22, R24, R25, R26, R27, R29, R155, R164: every step keeps the legal states. -/
def Obligations.StepKeepsLegalStates : Prop :=
  ∀ s t : State, Inv s → step s = .next t → Inv t

/-- R104, R121 ("Every cell is total"): from a legal state a step neither faults nor is refused. -/
def Obligations.LegalStateNeverStops : Prop :=
  ∀ s : State, Inv s → ∃ t, step s = .next t

/-- R29, R54, R71: every step, a request at an inner port too, keeps the canonical form of both stores. -/
def Obligations.StepKeepsStoresCanonical : Prop :=
  ∀ s t : State, Memory.wf s → step s = .next t → Memory.wf t

/-- R87, R184: every step, a request at an inner port too, writes whole SUBBLOCKs and TERMINATORs only. -/
def Obligations.StepKeepsTraceFramed : Prop :=
  ∀ s t : State, TraceFramed s → step s = .next t → TraceFramed t

/-- R55, R62 (a): while every answer is `ok` the output stream is the transactions' bytes in order. -/
def Obligations.StepKeepsStreamInOrder : Prop :=
  ∀ s t : State, StreamFollows s → step s = .next t → StreamFollows t

/-- R25, R30, R34: nothing unspecified, and nothing of an earlier session, influences a response, a transaction or a
specified item. -/
def Obligations.UnspecifiedStateNeverShows : Prop :=
  ∀ s t : State, Inv s → Inv t → Agree s t → 3 ≤ s.sinkScript.length →
    ∃ s' t', step s = .next s' ∧ step t = .next t' ∧ Agree s' t'

/-- R57, R72 to R77, R79, R123 to R132: a whole session, from any state in which BEGIN is accepted, writes exactly the
blocks of the code sequence computed without the machine's registers, in order, each acknowledged, and ends done. -/
def Obligations.SessionWritesItsCodes : Prop :=
  ∀ (req : BitVec 4) (pixels : List Byte) (s : State) (expected : List (List Byte)),
    s.fsm = .idle ∨ s.fsm = .flushed → s.params.Valid → req.toNat ≤ 8 → pixels ≠ [] → pixels.length < 2 ^ 32 →
    expected = Wire.sessionBlocks s.params (effectiveBpp req).toNat
      (pixels.map (fun p => (maskPixel (effectiveBpp req) p).toNat)) →
    answersOk expected.length s →
    ∃ t, execAll (sessionCommands req pixels) s = .next t ∧ t.fsm = .flushed ∧
      t.trace = s.trace ++ expected.map (fun b => (b, .ok)) ∧ t.stream = s.stream ++ expected.flatten ∧
      t.response = some (effectiveBpp req ++ 0b1000#4)

/-! ### The Dictionary -/

/-- R52, R53, whole: within its precondition a write gains one entry and changes no other; a clear leaves the empty map. -/
def Obligations.DictReadsSeeWritesAndClears : Prop :=
  (∀ (s : State) (key : Key) (code : Code), dictRead s key = none → s.dict.length < s.params.lzMaxCode →
    ∃ t, dictWrite key code s = .ok t ∧ dictRead t key = some code ∧
      ∀ other, other ≠ key → dictRead t other = dictRead s other) ∧
  (∀ (s : State) (key : Key), dictRead (dictClearAll s) key = none)

/-- R54: a slot reads as the byte last written to it, and a write leaves every other slot alone. -/
def Obligations.BufferReadsLastWrite : Prop :=
  ∀ (s : State) (i : BitVec 8) (b : Byte), i ≠ 0 →
    bufRead (bufWrite i b s) i = b ∧ ∀ j : BitVec 8, j ≠ i → bufRead (bufWrite i b s) j = bufRead s j

/-- R83, R102: DICT.LOOKUP answers the entry or a miss and writes no state; the code of a miss is a free value. -/
def Obligations.DictLookupAnswers : Prop :=
  ∀ (key : Key) (s : State), ∃ t, exec (.dictLookup key) s = .next t ∧
    (∀ c, dictRead s key = some c → t.dictReply = some (1#1 ++ c)) ∧
    (dictRead s key = none → ∃ c : Code, t.dictReply = some (0#1 ++ c)) ∧
    sameCore s t ∧ t.response = s.response

/-- R83, R103: DICT.INSERT within its preconditions gains one entry. -/
def Obligations.DictInsertGainsEntry : Prop :=
  ∀ (key : Key) (code : Code) (s : State), dictRead s key = none → s.dict.length < s.params.lzMaxCode →
    ∃ t, exec (.dictInsert key code) s = .next t ∧ dictRead t key = some code ∧
      (∀ other, other ≠ key → dictRead t other = dictRead s other) ∧ t.dict.length = s.dict.length + 1 ∧
      (∃ c : Code, t.dictReply = some (0#1 ++ c)) ∧
      sameControl s t ∧ sameSession s t ∧ sameWidth s t ∧ samePacker s t ∧ sameFramer s t ∧ sameSink s t ∧
      sameHost s t ∧ t.response = s.response

/-- R103, U1, U2: outside its preconditions DICT.INSERT stops. That a present key is reported as the duplicate at capacity
too is the model's choice (log 7). -/
def Obligations.DictInsertFaultsOutsidePreconditions : Prop :=
  ∀ (key : Key) (code : Code) (s : State),
    (dictRead s key ≠ none → exec (.dictInsert key code) s = .fault .dictDuplicateKey) ∧
    (dictRead s key = none → s.params.lzMaxCode ≤ s.dict.length →
      exec (.dictInsert key code) s = .fault .dictAtCapacity)

/-- R83, R101: DICT.CLEAR empties the dictionary and changes nothing else of the core. -/
def Obligations.DictClearEmpties : Prop :=
  ∀ s : State, ∃ t, exec .dictClear s = .next t ∧ (∀ key, dictRead t key = none) ∧ t.dict = [] ∧
    (∃ c : Code, t.dictReply = some (0#1 ++ c)) ∧
    sameControl s t ∧ sameSession s t ∧ sameWidth s t ∧ samePacker s t ∧ sameFramer s t ∧ sameSink s t ∧
    sameHost s t ∧ t.response = s.response

/-- R106, R109: the CAM answers every sequence of operations the emitter can issue as the abstract map does, whatever its
rows held. -/
def Obligations.CamRefinesMap : Prop :=
  ∀ (first limit : Nat) (cam : Organisation.Cam) (ops : List Organisation.DictOp), limit ≤ 4096 →
    Organisation.emitterIssues first limit [] first ops = true →
    Organisation.camAnswers first cam first ops = Organisation.mapAnswers first [] first ops

/-- R107, R108, R109: the hashed SRAM answers every such sequence as the abstract map does, whatever the hash. -/
def Obligations.HashedSramRefinesMap : Prop :=
  ∀ (first limit : Nat) (ops : List Organisation.DictOp), limit ≤ 4096 →
    Organisation.emitterIssues first limit [] first ops = true →
    Organisation.sramAnswers first Organisation.sramEmpty first ops = Organisation.mapAnswers first [] first ops

/-! ### The width controller -/

/-- R151: WC.INIT in every state; each result wherever it fits its register, as it does in every session. -/
def Obligations.WcInitStartsWidths : Prop :=
  ∀ s : State,
    ∃ t, exec .wcInit s = .next t ∧ t.runningCode.toNat = s.eofCode.toNat + 1 ∧
      (s.bpp.toNat < 15 → t.runningBits.toNat = s.bpp.toNat + 1) ∧
      (s.bpp.toNat < 12 → t.maxCode1.toNat = 2 ^ (s.bpp.toNat + 1)) ∧
      sameControl s t ∧ sameSession s t ∧ samePacker s t ∧ sameFramer s t ∧ sameDict s t ∧ sameSink s t ∧
      sameHost s t ∧ sameReplies s t

/-- R152, whole: WC.ADVANCE within its precondition. -/
def Obligations.WcAdvanceCountsOne : Prop :=
  decode (.port (.ww 0b10)) = .ok .wcAdvance ∧
  ∀ s : State, s.params.Valid → s.runningCode.toNat < s.params.lzMaxCode →
    ∃ t, exec .wcAdvance s = .next t ∧ t.runningCode.toNat = s.runningCode.toNat + 1 ∧
      t.runningCode.toNat ≤ s.params.lzMaxCode ∧ t.runningBits = s.runningBits ∧ t.maxCode1 = s.maxCode1 ∧
      sameControl s t ∧ sameSession s t ∧ samePacker s t ∧ sameFramer s t ∧ sameDict s t ∧ sameSink s t ∧
      sameHost s t ∧ sameReplies s t

/-- R153, R154: WC.GROW widens by one at the threshold, below the ceiling, and otherwise does nothing. -/
def Obligations.WcGrowWidensAtThreshold : Prop :=
  ∀ s : State, s.params.lzBits ≤ 12 →
    ∃ t, exec .wcGrow s = .next t ∧ t.runningCode = s.runningCode ∧ t.runningBits.toNat = grownBits s ∧
      (s.maxCode1.toNat ≤ s.runningCode.toNat ∧ s.runningBits.toNat < s.params.lzBits →
        t.maxCode1.toNat = 2 ^ (s.runningBits.toNat + 1)) ∧
      (¬ (s.maxCode1.toNat ≤ s.runningCode.toNat ∧ s.runningBits.toNat < s.params.lzBits) → t = s) ∧
      sameControl s t ∧ sameSession s t ∧ samePacker s t ∧ sameFramer s t ∧ sameDict s t ∧ sameSink s t ∧
      sameHost s t ∧ sameReplies s t

/-- R79, R155, R157: in an open session the width is a function of how many codes have been assigned since the clear. -/
def Obligations.WidthFollowsSchedule : Prop :=
  ∀ s : State, s.params.Valid → SessionRegs s → WidthRegs s →
    s.runningBits.toNat =
      Wire.widthAfter s.params.lzBits s.bpp.toNat (s.runningCode.toNat - (s.eofCode.toNat + 1))

/-- R129, R154: with the default parameters a saturated session is at twelve bits, where the ceiling holds. -/
def Obligations.SaturatedWidthIsTwelve : Prop :=
  ∀ s : State, s.params = Config.defaults → SessionRegs s → WidthRegs s → s.runningCode.toNat = 4096 →
    s.runningBits.toNat = 12 ∧ s.maxCode1.toNat = 4096 ∧ wcGrow s = s

/-- R155: WC.INIT establishes the width invariant, and a data code's WC.GROW followed by WC.ADVANCE keeps it. -/
def Obligations.WidthInvariantKept : Prop :=
  ∀ s : State, s.params.Valid → SessionRegs s →
    WidthRegs (wcInit s) ∧
    (WidthRegs s → s.runningCode.toNat < s.params.lzMaxCode → WidthRegs (wcAdvance (wcGrow s)))

/-- R158: a growth check after a special code, reading A, would do nothing: after WC.INIT, and after a data code's own
check. -/
def Obligations.GrowthReadingsAgree : Prop :=
  ∀ s : State, s.params.Valid → SessionRegs s →
    wcGrow (wcInit s) = wcInit s ∧ (WidthRegs s → wcGrow (wcGrow s) = wcGrow s)

/-! ### The Bit Packer -/

/-- R57, R72, R160, R162, R164: PK.EMIT_SPECIAL appends the code's bits, bit 0 first, at the current width. -/
def Obligations.EmitSpecialAppendsBits : Prop :=
  ∀ (c : Code) (s : State), PackerRegs s → s.runningBits.toNat ≤ 12 → c.toNat < 2 ^ s.runningBits.toNat →
    answersOk 1 s →
    ∃ t, exec (.pkEmitSpecial c) s = .next t ∧ PackerRegs t ∧
      Wire.bitsSoFar t = Wire.bitsSoFar s ++ Wire.valueBits s.runningBits.toNat c.toNat ∧
      sameControl s t ∧ sameSession s t ∧ sameWidth s t ∧ sameDict s t ∧ sameHost s t ∧ sameReplies s t

/-- R57, R72, R160, R161, R164: PK.EMIT_DATA appends the code's bits at the old width, and only then grows. -/
def Obligations.EmitDataAppendsBitsThenGrows : Prop :=
  ∀ (c : Code) (s : State), PackerRegs s → s.runningBits.toNat ≤ 12 → c.toNat < 2 ^ s.runningBits.toNat →
    s.params.lzBits ≤ 12 → answersOk 1 s →
    ∃ t, exec (.pkEmitData c) s = .next t ∧ PackerRegs t ∧
      Wire.bitsSoFar t = Wire.bitsSoFar s ++ Wire.valueBits s.runningBits.toNat c.toNat ∧
      t.runningCode = s.runningCode ∧ t.runningBits.toNat = grownBits s ∧
      sameControl s t ∧ sameSession s t ∧ sameDict s t ∧ sameHost s t ∧ sameReplies s t

/-- R59, R63, R163: PK.FLUSH hands every bit to the sink, pads the last byte with fewer than eight zero bits, writes the
TERMINATOR last and leaves accumulator and buffer empty. -/
def Obligations.FlushHandsOverEveryBit : Prop :=
  ∀ s : State, PackerRegs s → answersOk 3 s →
    ∃ t w pad, exec .pkFlush s = .next t ∧ t.shiftValue = 0 ∧ t.shiftBits = 0 ∧ t.sbCount = 0 ∧
      t.trace = s.trace ++ w ++ [([0x00], .ok)] ∧ pad < 8 ∧
      Wire.bytesBits (Wire.tracePayload t.trace) = Wire.bitsSoFar s ++ List.replicate pad false ∧
      sameControl s t ∧ sameSession s t ∧ sameWidth s t ∧ sameDict s t ∧ sameHost s t ∧ sameReplies s t

/-! ### The framer and the sink -/

/-- R181: SB.PUT below a full buffer stores the byte in the next slot and writes nothing. -/
def Obligations.SbPutStoresNextSlot : Prop :=
  ∀ (b : Byte) (s : State), s.sbCount.toNat < 255 →
    ∃ t, exec (.sbPut b) s = .next t ∧ t.sbCount.toNat = s.sbCount.toNat + 1 ∧ bufRead t (s.sbCount + 1) = b ∧
      (∀ i : BitVec 8, i ≠ 0 → i ≠ s.sbCount + 1 → bufRead t i = bufRead s i) ∧
      heldBytes t = heldBytes s ++ [b] ∧
      sameControl s t ∧ sameSession s t ∧ sameWidth s t ∧ samePacker s t ∧ sameDict s t ∧ sameSink s t ∧
      sameHost s t ∧ sameReplies s t

/-- R180, R181: SB.PUT at a full buffer first writes the full block, then starts a new one with the byte. -/
def Obligations.SbPutWritesFullBlock : Prop :=
  ∀ (b : Byte) (s : State), s.sbCount.toNat = 255 → answersOk 1 s →
    ∃ t, exec (.sbPut b) s = .next t ∧ t.sbCount = 1 ∧ heldBytes t = [b] ∧
      t.trace = s.trace ++ [(0xFF :: heldBytes s, .ok)] ∧ t.stream = s.stream ++ 0xFF :: heldBytes s ∧
      sameControl s t ∧ sameSession s t ∧ sameWidth s t ∧ samePacker s t ∧ sameDict s t ∧
      sameHost s t ∧ sameReplies s t

/-- R182: SB.TERMINATE writes the partial block if there is one, then the TERMINATOR, in two transactions. -/
def Obligations.SbTerminateWritesLastBlocks : Prop :=
  ∀ s : State, answersOk 2 s →
    ∃ t w, exec .sbTerminate s = .next t ∧ t.sbCount = 0 ∧
      w = (if s.sbCount = 0 then [[0x00]] else [s.sbCount :: heldBytes s, [0x00]]) ∧
      t.trace = s.trace ++ w.map (fun b => (b, .ok)) ∧ t.stream = s.stream ++ w.flatten ∧
      sameControl s t ∧ sameSession s t ∧ sameWidth s t ∧ samePacker s t ∧ sameDict s t ∧
      sameHost s t ∧ sameReplies s t

/-- R181, R182, R187: a failed write ends SB.PUT and SB.TERMINATE at that point, whichever of the two writes of
SB.TERMINATE fails. That the operation, run as a step of its own, poisons and answers a response in every state, as R206 has
it for a command, is the model's choice (log 16). -/
def Obligations.FramerStopsAtFailedWrite : Prop :=
  ∀ (b : Byte) (s : State) (rest : List Config.Answer),
    (s.sinkScript = .fail :: rest →
      (s.sbCount.toNat = 255 → ∃ t, exec (.sbPut b) s = .next t ∧ poisonedBy .sinkWriteFailure s t ∧
        t.trace = s.trace ++ [(0xFF :: heldBytes s, .fail)] ∧ t.sinkScript = rest ∧ sameHost s t) ∧
      (s.sbCount ≠ 0 → ∃ t, exec .sbTerminate s = .next t ∧ poisonedBy .sinkWriteFailure s t ∧
        t.trace = s.trace ++ [(s.sbCount :: heldBytes s, .fail)] ∧ t.sinkScript = rest ∧ sameHost s t) ∧
      (s.sbCount = 0 → ∃ t, exec .sbTerminate s = .next t ∧ poisonedBy .sinkWriteFailure s t ∧
        t.trace = s.trace ++ [([0x00], .fail)] ∧ t.sinkScript = rest ∧ sameHost s t)) ∧
    (s.sinkScript = .ok :: .fail :: rest → s.sbCount ≠ 0 →
      ∃ t, exec .sbTerminate s = .next t ∧ poisonedBy .sinkWriteFailure s t ∧
        t.trace = s.trace ++ [(s.sbCount :: heldBytes s, .ok), ([0x00], .fail)] ∧ t.sinkScript = rest ∧ sameHost s t)

/-- R55, R183: SINK.WRITE records the transaction with its answer; on `ok` the stream gains exactly the bytes, the length
byte first, and the core keeps its state; on `fail` the stream gains some front part of them and the operation raises.
That the operation, run as a step of its own, poisons and answers a response in every state, as R206 has it for a command,
is the model's choice (log 16). -/
def Obligations.SinkWriteFollowsAnswer : Prop :=
  ∀ (payload : List Byte) (s : State) (len : Byte) (rest : List Config.Answer), len.toNat = payload.length →
    (s.sinkScript = .ok :: rest →
      ∃ t, exec (.sinkWrite payload) s = .next t ∧ t.stream = s.stream ++ len :: payload ∧
        t.trace = s.trace ++ [(len :: payload, .ok)] ∧ t.sinkScript = rest ∧
        sameControl s t ∧ sameSession s t ∧ sameWidth s t ∧ samePacker s t ∧ sameFramer s t ∧ sameDict s t ∧
        sameHost s t ∧ sameReplies s t) ∧
    (s.sinkScript = .fail :: rest →
      ∃ t k, exec (.sinkWrite payload) s = .next t ∧ poisonedBy .sinkWriteFailure s t ∧
        t.stream = s.stream ++ (len :: payload).take k ∧ t.trace = s.trace ++ [(len :: payload, .fail)] ∧
        t.sinkScript = rest ∧ sameHost s t ∧ t.dictReply = s.dictReply)

/-- R82, R200: the fields of the response word, whatever the status. -/
def Obligations.ResponseWordFields : Prop :=
  ∀ (s : State) (status : Option ErrorKind),
    (responseWord s status).extractLsb' 4 4 =
      (if s.fsm = .awaitFirst ∨ s.fsm = .matching ∨ s.fsm = .flushed then s.bpp else 0) ∧
    (responseWord s status).getLsbD 3 = decide (s.fsm = .flushed) ∧
    ((responseWord s status).extractLsb' 0 3).toNat =
      (match status with
       | none => 0
       | some .sinkWriteFailure => 1
       | some .dataOverrun => 2
       | some .stateMisuse => 3
       | some .allocationFailure => 4)

/-! ### Scripts -/

/-- R90, R91: the pseudo-instructions stand for their commands in order, and a line with an operand out of range does not
assemble. -/
def Obligations.PseudoInstructionsExpand : Prop :=
  ∀ (bpp : Nat) (pixels : List Nat),
    ((∀ p ∈ pixels, p < 2 ^ 8) →
      Script.assemble (.pushN pixels) = some (pixels.map (fun p => .push (BitVec.ofNat 8 p))) ∧
      (bpp < 2 ^ 4 → pixels.length < 2 ^ 32 → Script.assemble (.image bpp pixels) =
        some (sessionCommands (BitVec.ofNat 4 bpp) (pixels.map (fun p => BitVec.ofNat 8 p))))) ∧
    ((∃ p ∈ pixels, 2 ^ 8 ≤ p) →
      Script.assemble (.pushN pixels) = none ∧ Script.assemble (.image bpp pixels) = none)
end

