-- ==== Sys2Proof/Laws/Bits.lean ====
section
/-!
SUPPORT. The bits of values and bytes (spec/20_memory.md R57, spec/43_bit_packer.md R165).
-/

namespace Sys2Proof.Machine.Wire

@[simp] theorem valueBits_zero (v : Nat) : valueBits 0 v = [] := rfl

@[simp] theorem valueBits_length (n v : Nat) : (valueBits n v).length = n := by simp [valueBits]

/-- The bits of the sum of a low part and a shifted high part are the bits of the two, one after the other. -/
theorem valueBits_append (a b x y : Nat) (hx : x < 2 ^ a) :
    valueBits (a + b) (x ||| y <<< a) = valueBits a x ++ valueBits b y := by
  unfold valueBits
  rw [List.range_add, List.map_append, List.map_map]
  congr 1
  · apply List.map_congr_left
    intro i hi
    have hi := List.mem_range.mp hi
    simp only [Nat.testBit_or, Nat.testBit_shiftLeft, ge_iff_le, Nat.not_le.mpr hi, decide_false, Bool.false_and,
      Bool.or_false]
  · apply List.map_congr_left
    intro i _
    have hz : x.testBit (a + i) = false :=
      Nat.testBit_lt_two_pow (Nat.lt_of_lt_of_le hx (Nat.pow_le_pow_right (by decide) (Nat.le_add_right a i)))
    simp [Nat.testBit_or, Nat.testBit_shiftLeft, hz]

/-- Splitting the low `a` bits off. -/
theorem valueBits_split (a b v : Nat) : valueBits (a + b) v = valueBits a (v % 2 ^ a) ++ valueBits b (v >>> a) := by
  unfold valueBits
  rw [List.range_add, List.map_append, List.map_map]
  congr 1
  · apply List.map_congr_left
    intro i hi
    have hi := List.mem_range.mp hi
    simp [Nat.testBit_mod_two_pow, hi]
  · apply List.map_congr_left
    intro i _
    simp [Nat.testBit_shiftRight]

@[simp] theorem bytesBits_nil : bytesBits [] = [] := rfl

theorem bytesBits_append (x y : List Byte) : bytesBits (x ++ y) = bytesBits x ++ bytesBits y := by
  simp [bytesBits]

theorem bytesBits_singleton (b : Byte) : bytesBits [b] = valueBits 8 b.toNat := by simp [bytesBits]

theorem tracePayload_append (x y : List (List Byte × Config.Answer)) :
    tracePayload (x ++ y) = tracePayload x ++ tracePayload y := by
  simp [tracePayload]

end Sys2Proof.Machine.Wire
end

