-- ==== Sys2Proof/Laws/Operands.lean ====
section
/-!
SUPPORT. What the operand forms are as numbers (spec/30_encoding.md R71, R81).
-/

namespace Sys2Proof.Machine

/-- An exact result in its range enters the register as it is. -/
theorem fit_toNat {w n : Nat} (free : BitVec w) (h : n < 2 ^ w) : (fit w n free).toNat = n := by
  simp [fit, h, Nat.mod_eq_of_lt h]

theorem fit_eq {w n : Nat} (free : BitVec w) (h : n < 2 ^ w) : fit w n free = BitVec.ofNat w n := by
  simp [fit, h]

theorem effectiveBpp_toNat (req : BitVec 4) : (effectiveBpp req).toNat = max req.toNat 2 := by
  unfold effectiveBpp
  split <;> simp_all only [Config.bppMin, BitVec.toNat_ofNat] <;> omega

theorem pixelMask_toNat (bpp : BitVec 4) : (pixelMask bpp).toNat = 2 ^ min bpp.toNat 8 - 1 := by
  have h : ∀ b : Fin 16, (BitVec.ofNat 8 (2 ^ b.val - 1)).toNat = 2 ^ min b.val 8 - 1 := by decide
  exact h ⟨bpp.toNat, bpp.isLt⟩

/-- The mask keeps the low `bpp` bits (R81). -/
theorem maskPixel_toNat (bpp : BitVec 4) (pixel : Byte) :
    (maskPixel bpp pixel).toNat = pixel.toNat % 2 ^ bpp.toNat := by
  have hp := pixel.isLt
  rw [maskPixel, BitVec.toNat_and, pixelMask_toNat, Nat.and_two_pow_sub_one_eq_mod]
  by_cases h : bpp.toNat ≤ 8
  · rw [Nat.min_eq_left h]
  · have h8 : 8 ≤ bpp.toNat := by omega
    have : (2 : Nat) ^ 8 ≤ 2 ^ bpp.toNat := Nat.pow_le_pow_right (by decide) h8
    rw [Nat.min_eq_right h8, Nat.mod_eq_of_lt hp, Nat.mod_eq_of_lt (by omega)]

/-- Masking twice is masking once. -/
theorem maskPixel_idem (bpp : BitVec 4) (pixel : Byte) : maskPixel bpp (maskPixel bpp pixel) = maskPixel bpp pixel :=
  BitVec.eq_of_toNat_eq (by simp [maskPixel_toNat])

/-- A key as a number: the code above the pixel (R71). -/
theorem keyOf_toNat (code : Code) (pixel : Byte) : (keyOf code pixel).toNat = code.toNat * 256 + pixel.toNat := by
  have hp := pixel.isLt
  rw [keyOf, BitVec.toNat_append, ← Nat.shiftLeft_add_eq_or_of_lt hp, Nat.shiftLeft_eq]

@[simp] theorem pixelCode_toNat (pixel : Byte) : (pixelCode pixel).toNat = pixel.toNat := by
  have hp := pixel.isLt
  simp only [pixelCode, BitVec.truncate_eq_setWidth, BitVec.toNat_setWidth]
  omega

@[simp] theorem specialCode_toNat (code : BitVec 9) : (specialCode code).toNat = code.toNat := by
  have hp := code.isLt
  simp only [specialCode, BitVec.truncate_eq_setWidth, BitVec.toNat_setWidth]
  omega

end Sys2Proof.Machine
end

