-- ==== Sys2Proof/Laws/State.lean ====
section
/-!
SUPPORT. What each named update does to each field of the state, all true by `rfl`: a later proof rewrites with these and
unfolds no record update.
-/

namespace Sys2Proof.Machine

variable (s : State)

/-! ### bufEmpty -/

@[simp] theorem bufEmpty_fsm : (bufEmpty s).fsm = s.fsm := rfl
@[simp] theorem bufEmpty_cause : (bufEmpty s).cause = s.cause := rfl
@[simp] theorem bufEmpty_bpp : (bufEmpty s).bpp = s.bpp := rfl
@[simp] theorem bufEmpty_clearCode : (bufEmpty s).clearCode = s.clearCode := rfl
@[simp] theorem bufEmpty_eofCode : (bufEmpty s).eofCode = s.eofCode := rfl
@[simp] theorem bufEmpty_quota : (bufEmpty s).quota = s.quota := rfl
@[simp] theorem bufEmpty_pendingPrefix : (bufEmpty s).pendingPrefix = s.pendingPrefix := rfl
@[simp] theorem bufEmpty_runningCode : (bufEmpty s).runningCode = s.runningCode := rfl
@[simp] theorem bufEmpty_runningBits : (bufEmpty s).runningBits = s.runningBits := rfl
@[simp] theorem bufEmpty_maxCode1 : (bufEmpty s).maxCode1 = s.maxCode1 := rfl
@[simp] theorem bufEmpty_shiftValue : (bufEmpty s).shiftValue = s.shiftValue := rfl
@[simp] theorem bufEmpty_shiftBits : (bufEmpty s).shiftBits = s.shiftBits := rfl
@[simp] theorem bufEmpty_sbCount : (bufEmpty s).sbCount = 0 := rfl
@[simp] theorem bufEmpty_sbData : (bufEmpty s).sbData = [] := rfl
@[simp] theorem bufEmpty_dict : (bufEmpty s).dict = s.dict := rfl
@[simp] theorem bufEmpty_hostInput : (bufEmpty s).hostInput = s.hostInput := rfl
@[simp] theorem bufEmpty_request : (bufEmpty s).request = s.request := rfl
@[simp] theorem bufEmpty_sinkScript : (bufEmpty s).sinkScript = s.sinkScript := rfl
@[simp] theorem bufEmpty_stream : (bufEmpty s).stream = s.stream := rfl
@[simp] theorem bufEmpty_trace : (bufEmpty s).trace = s.trace := rfl
@[simp] theorem bufEmpty_response : (bufEmpty s).response = s.response := rfl
@[simp] theorem bufEmpty_dictReply : (bufEmpty s).dictReply = s.dictReply := rfl
@[simp] theorem bufEmpty_draws : (bufEmpty s).draws = s.draws + 1 := rfl
@[simp] theorem bufEmpty_slotDraw : (bufEmpty s).slotDraw = s.draws := rfl
@[simp] theorem bufEmpty_params : (bufEmpty s).params = s.params := rfl

/-! ### forgetPrefix -/

@[simp] theorem forgetPrefix_fsm : (forgetPrefix s).fsm = s.fsm := rfl
@[simp] theorem forgetPrefix_cause : (forgetPrefix s).cause = s.cause := rfl
@[simp] theorem forgetPrefix_bpp : (forgetPrefix s).bpp = s.bpp := rfl
@[simp] theorem forgetPrefix_clearCode : (forgetPrefix s).clearCode = s.clearCode := rfl
@[simp] theorem forgetPrefix_eofCode : (forgetPrefix s).eofCode = s.eofCode := rfl
@[simp] theorem forgetPrefix_quota : (forgetPrefix s).quota = s.quota := rfl
@[simp] theorem forgetPrefix_pendingPrefix : (forgetPrefix s).pendingPrefix = drawn 12 .pendingPrefix s := rfl
@[simp] theorem forgetPrefix_runningCode : (forgetPrefix s).runningCode = s.runningCode := rfl
@[simp] theorem forgetPrefix_runningBits : (forgetPrefix s).runningBits = s.runningBits := rfl
@[simp] theorem forgetPrefix_maxCode1 : (forgetPrefix s).maxCode1 = s.maxCode1 := rfl
@[simp] theorem forgetPrefix_shiftValue : (forgetPrefix s).shiftValue = s.shiftValue := rfl
@[simp] theorem forgetPrefix_shiftBits : (forgetPrefix s).shiftBits = s.shiftBits := rfl
@[simp] theorem forgetPrefix_sbCount : (forgetPrefix s).sbCount = s.sbCount := rfl
@[simp] theorem forgetPrefix_sbData : (forgetPrefix s).sbData = s.sbData := rfl
@[simp] theorem forgetPrefix_dict : (forgetPrefix s).dict = s.dict := rfl
@[simp] theorem forgetPrefix_hostInput : (forgetPrefix s).hostInput = s.hostInput := rfl
@[simp] theorem forgetPrefix_request : (forgetPrefix s).request = s.request := rfl
@[simp] theorem forgetPrefix_sinkScript : (forgetPrefix s).sinkScript = s.sinkScript := rfl
@[simp] theorem forgetPrefix_stream : (forgetPrefix s).stream = s.stream := rfl
@[simp] theorem forgetPrefix_trace : (forgetPrefix s).trace = s.trace := rfl
@[simp] theorem forgetPrefix_response : (forgetPrefix s).response = s.response := rfl
@[simp] theorem forgetPrefix_dictReply : (forgetPrefix s).dictReply = s.dictReply := rfl
@[simp] theorem forgetPrefix_draws : (forgetPrefix s).draws = s.draws + 1 := rfl
@[simp] theorem forgetPrefix_slotDraw : (forgetPrefix s).slotDraw = s.slotDraw := rfl
@[simp] theorem forgetPrefix_params : (forgetPrefix s).params = s.params := rfl

/-! ### forgetDict -/

@[simp] theorem forgetDict_fsm : (forgetDict s).fsm = s.fsm := rfl
@[simp] theorem forgetDict_cause : (forgetDict s).cause = s.cause := rfl
@[simp] theorem forgetDict_bpp : (forgetDict s).bpp = s.bpp := rfl
@[simp] theorem forgetDict_clearCode : (forgetDict s).clearCode = s.clearCode := rfl
@[simp] theorem forgetDict_eofCode : (forgetDict s).eofCode = s.eofCode := rfl
@[simp] theorem forgetDict_quota : (forgetDict s).quota = s.quota := rfl
@[simp] theorem forgetDict_pendingPrefix : (forgetDict s).pendingPrefix = s.pendingPrefix := rfl
@[simp] theorem forgetDict_runningCode : (forgetDict s).runningCode = s.runningCode := rfl
@[simp] theorem forgetDict_runningBits : (forgetDict s).runningBits = s.runningBits := rfl
@[simp] theorem forgetDict_maxCode1 : (forgetDict s).maxCode1 = s.maxCode1 := rfl
@[simp] theorem forgetDict_shiftValue : (forgetDict s).shiftValue = s.shiftValue := rfl
@[simp] theorem forgetDict_shiftBits : (forgetDict s).shiftBits = s.shiftBits := rfl
@[simp] theorem forgetDict_sbCount : (forgetDict s).sbCount = s.sbCount := rfl
@[simp] theorem forgetDict_sbData : (forgetDict s).sbData = s.sbData := rfl
@[simp] theorem forgetDict_dict : (forgetDict s).dict = freeDict s := rfl
@[simp] theorem forgetDict_hostInput : (forgetDict s).hostInput = s.hostInput := rfl
@[simp] theorem forgetDict_request : (forgetDict s).request = s.request := rfl
@[simp] theorem forgetDict_sinkScript : (forgetDict s).sinkScript = s.sinkScript := rfl
@[simp] theorem forgetDict_stream : (forgetDict s).stream = s.stream := rfl
@[simp] theorem forgetDict_trace : (forgetDict s).trace = s.trace := rfl
@[simp] theorem forgetDict_response : (forgetDict s).response = s.response := rfl
@[simp] theorem forgetDict_dictReply : (forgetDict s).dictReply = s.dictReply := rfl
@[simp] theorem forgetDict_draws : (forgetDict s).draws = s.draws + 1 := rfl
@[simp] theorem forgetDict_slotDraw : (forgetDict s).slotDraw = s.slotDraw := rfl
@[simp] theorem forgetDict_params : (forgetDict s).params = s.params := rfl

/-! ### respondOk -/

@[simp] theorem respondOk_fsm : (respondOk s).fsm = s.fsm := rfl
@[simp] theorem respondOk_cause : (respondOk s).cause = s.cause := rfl
@[simp] theorem respondOk_bpp : (respondOk s).bpp = s.bpp := rfl
@[simp] theorem respondOk_clearCode : (respondOk s).clearCode = s.clearCode := rfl
@[simp] theorem respondOk_eofCode : (respondOk s).eofCode = s.eofCode := rfl
@[simp] theorem respondOk_quota : (respondOk s).quota = s.quota := rfl
@[simp] theorem respondOk_pendingPrefix : (respondOk s).pendingPrefix = s.pendingPrefix := rfl
@[simp] theorem respondOk_runningCode : (respondOk s).runningCode = s.runningCode := rfl
@[simp] theorem respondOk_runningBits : (respondOk s).runningBits = s.runningBits := rfl
@[simp] theorem respondOk_maxCode1 : (respondOk s).maxCode1 = s.maxCode1 := rfl
@[simp] theorem respondOk_shiftValue : (respondOk s).shiftValue = s.shiftValue := rfl
@[simp] theorem respondOk_shiftBits : (respondOk s).shiftBits = s.shiftBits := rfl
@[simp] theorem respondOk_sbCount : (respondOk s).sbCount = s.sbCount := rfl
@[simp] theorem respondOk_sbData : (respondOk s).sbData = s.sbData := rfl
@[simp] theorem respondOk_dict : (respondOk s).dict = s.dict := rfl
@[simp] theorem respondOk_hostInput : (respondOk s).hostInput = s.hostInput := rfl
@[simp] theorem respondOk_request : (respondOk s).request = s.request := rfl
@[simp] theorem respondOk_sinkScript : (respondOk s).sinkScript = s.sinkScript := rfl
@[simp] theorem respondOk_stream : (respondOk s).stream = s.stream := rfl
@[simp] theorem respondOk_trace : (respondOk s).trace = s.trace := rfl
@[simp] theorem respondOk_response : (respondOk s).response = some (responseWord s none) := rfl
@[simp] theorem respondOk_dictReply : (respondOk s).dictReply = s.dictReply := rfl
@[simp] theorem respondOk_draws : (respondOk s).draws = s.draws := rfl
@[simp] theorem respondOk_slotDraw : (respondOk s).slotDraw = s.slotDraw := rfl
@[simp] theorem respondOk_params : (respondOk s).params = s.params := rfl

/-! ### dictClearAll -/

@[simp] theorem dictClearAll_fsm : (dictClearAll s).fsm = s.fsm := rfl
@[simp] theorem dictClearAll_cause : (dictClearAll s).cause = s.cause := rfl
@[simp] theorem dictClearAll_bpp : (dictClearAll s).bpp = s.bpp := rfl
@[simp] theorem dictClearAll_clearCode : (dictClearAll s).clearCode = s.clearCode := rfl
@[simp] theorem dictClearAll_eofCode : (dictClearAll s).eofCode = s.eofCode := rfl
@[simp] theorem dictClearAll_quota : (dictClearAll s).quota = s.quota := rfl
@[simp] theorem dictClearAll_pendingPrefix : (dictClearAll s).pendingPrefix = s.pendingPrefix := rfl
@[simp] theorem dictClearAll_runningCode : (dictClearAll s).runningCode = s.runningCode := rfl
@[simp] theorem dictClearAll_runningBits : (dictClearAll s).runningBits = s.runningBits := rfl
@[simp] theorem dictClearAll_maxCode1 : (dictClearAll s).maxCode1 = s.maxCode1 := rfl
@[simp] theorem dictClearAll_shiftValue : (dictClearAll s).shiftValue = s.shiftValue := rfl
@[simp] theorem dictClearAll_shiftBits : (dictClearAll s).shiftBits = s.shiftBits := rfl
@[simp] theorem dictClearAll_sbCount : (dictClearAll s).sbCount = s.sbCount := rfl
@[simp] theorem dictClearAll_sbData : (dictClearAll s).sbData = s.sbData := rfl
@[simp] theorem dictClearAll_dict : (dictClearAll s).dict = [] := rfl
@[simp] theorem dictClearAll_hostInput : (dictClearAll s).hostInput = s.hostInput := rfl
@[simp] theorem dictClearAll_request : (dictClearAll s).request = s.request := rfl
@[simp] theorem dictClearAll_sinkScript : (dictClearAll s).sinkScript = s.sinkScript := rfl
@[simp] theorem dictClearAll_stream : (dictClearAll s).stream = s.stream := rfl
@[simp] theorem dictClearAll_trace : (dictClearAll s).trace = s.trace := rfl
@[simp] theorem dictClearAll_response : (dictClearAll s).response = s.response := rfl
@[simp] theorem dictClearAll_dictReply : (dictClearAll s).dictReply = s.dictReply := rfl
@[simp] theorem dictClearAll_draws : (dictClearAll s).draws = s.draws := rfl
@[simp] theorem dictClearAll_slotDraw : (dictClearAll s).slotDraw = s.slotDraw := rfl
@[simp] theorem dictClearAll_params : (dictClearAll s).params = s.params := rfl

/-! ### unspecify -/

@[simp] theorem unspecify_fsm : (unspecify s).fsm = s.fsm := rfl
@[simp] theorem unspecify_cause : (unspecify s).cause = s.cause := rfl
@[simp] theorem unspecify_bpp : (unspecify s).bpp = drawn 4 .bpp s := rfl
@[simp] theorem unspecify_clearCode : (unspecify s).clearCode = drawn 9 .clearCode s := rfl
@[simp] theorem unspecify_eofCode : (unspecify s).eofCode = drawn 9 .eofCode s := rfl
@[simp] theorem unspecify_quota : (unspecify s).quota = drawn 32 .quota s := rfl
@[simp] theorem unspecify_pendingPrefix : (unspecify s).pendingPrefix = drawn 12 .pendingPrefix s := rfl
@[simp] theorem unspecify_runningCode : (unspecify s).runningCode = drawn 13 .runningCode s := rfl
@[simp] theorem unspecify_runningBits : (unspecify s).runningBits = drawn 4 .runningBits s := rfl
@[simp] theorem unspecify_maxCode1 : (unspecify s).maxCode1 = drawn 13 .maxCode1 s := rfl
@[simp] theorem unspecify_shiftValue : (unspecify s).shiftValue = drawn 19 .shiftValue s := rfl
@[simp] theorem unspecify_shiftBits : (unspecify s).shiftBits = drawn 5 .shiftBits s := rfl
@[simp] theorem unspecify_sbCount : (unspecify s).sbCount = drawn 8 .sbCount s := rfl
@[simp] theorem unspecify_sbData : (unspecify s).sbData = [] := rfl
@[simp] theorem unspecify_dict : (unspecify s).dict = freeDict s := rfl
@[simp] theorem unspecify_hostInput : (unspecify s).hostInput = s.hostInput := rfl
@[simp] theorem unspecify_request : (unspecify s).request = s.request := rfl
@[simp] theorem unspecify_sinkScript : (unspecify s).sinkScript = s.sinkScript := rfl
@[simp] theorem unspecify_stream : (unspecify s).stream = s.stream := rfl
@[simp] theorem unspecify_trace : (unspecify s).trace = s.trace := rfl
@[simp] theorem unspecify_response : (unspecify s).response = s.response := rfl
@[simp] theorem unspecify_dictReply : (unspecify s).dictReply = s.dictReply := rfl
@[simp] theorem unspecify_draws : (unspecify s).draws = s.draws + 1 := rfl
@[simp] theorem unspecify_slotDraw : (unspecify s).slotDraw = s.draws := rfl
@[simp] theorem unspecify_params : (unspecify s).params = s.params := rfl

/-! ### sinkAnswered -/

@[simp] theorem sinkAnswered_fsm (bytes : List Byte) : (sinkAnswered bytes s).fsm = s.fsm := rfl
@[simp] theorem sinkAnswered_cause (bytes : List Byte) : (sinkAnswered bytes s).cause = s.cause := rfl
@[simp] theorem sinkAnswered_bpp (bytes : List Byte) : (sinkAnswered bytes s).bpp = s.bpp := rfl
@[simp] theorem sinkAnswered_clearCode (bytes : List Byte) : (sinkAnswered bytes s).clearCode = s.clearCode := rfl
@[simp] theorem sinkAnswered_eofCode (bytes : List Byte) : (sinkAnswered bytes s).eofCode = s.eofCode := rfl
@[simp] theorem sinkAnswered_quota (bytes : List Byte) : (sinkAnswered bytes s).quota = s.quota := rfl
@[simp] theorem sinkAnswered_pendingPrefix (bytes : List Byte) :
    (sinkAnswered bytes s).pendingPrefix = s.pendingPrefix := rfl
@[simp] theorem sinkAnswered_runningCode (bytes : List Byte) :
    (sinkAnswered bytes s).runningCode = s.runningCode := rfl
@[simp] theorem sinkAnswered_runningBits (bytes : List Byte) :
    (sinkAnswered bytes s).runningBits = s.runningBits := rfl
@[simp] theorem sinkAnswered_maxCode1 (bytes : List Byte) : (sinkAnswered bytes s).maxCode1 = s.maxCode1 := rfl
@[simp] theorem sinkAnswered_shiftValue (bytes : List Byte) : (sinkAnswered bytes s).shiftValue = s.shiftValue := rfl
@[simp] theorem sinkAnswered_shiftBits (bytes : List Byte) : (sinkAnswered bytes s).shiftBits = s.shiftBits := rfl
@[simp] theorem sinkAnswered_sbCount (bytes : List Byte) : (sinkAnswered bytes s).sbCount = s.sbCount := rfl
@[simp] theorem sinkAnswered_sbData (bytes : List Byte) : (sinkAnswered bytes s).sbData = s.sbData := rfl
@[simp] theorem sinkAnswered_dict (bytes : List Byte) : (sinkAnswered bytes s).dict = s.dict := rfl
@[simp] theorem sinkAnswered_hostInput (bytes : List Byte) : (sinkAnswered bytes s).hostInput = s.hostInput := rfl
@[simp] theorem sinkAnswered_request (bytes : List Byte) : (sinkAnswered bytes s).request = s.request := rfl
@[simp] theorem sinkAnswered_sinkScript (bytes : List Byte) :
    (sinkAnswered bytes s).sinkScript = s.sinkScript.tail := rfl
@[simp] theorem sinkAnswered_stream (bytes : List Byte) :
    (sinkAnswered bytes s).stream = s.stream ++ streamGain s bytes := rfl
@[simp] theorem sinkAnswered_trace (bytes : List Byte) :
    (sinkAnswered bytes s).trace = s.trace ++ [(bytes, nextAnswer s)] := rfl
@[simp] theorem sinkAnswered_response (bytes : List Byte) : (sinkAnswered bytes s).response = s.response := rfl
@[simp] theorem sinkAnswered_dictReply (bytes : List Byte) : (sinkAnswered bytes s).dictReply = s.dictReply := rfl
@[simp] theorem sinkAnswered_draws (bytes : List Byte) : (sinkAnswered bytes s).draws = s.draws + 1 := rfl
@[simp] theorem sinkAnswered_slotDraw (bytes : List Byte) : (sinkAnswered bytes s).slotDraw = s.slotDraw := rfl
@[simp] theorem sinkAnswered_params (bytes : List Byte) : (sinkAnswered bytes s).params = s.params := rfl

/-! ### setWidth -/

@[simp] theorem setWidth_fsm (n : Nat) : (setWidth n s).fsm = s.fsm := rfl
@[simp] theorem setWidth_cause (n : Nat) : (setWidth n s).cause = s.cause := rfl
@[simp] theorem setWidth_bpp (n : Nat) : (setWidth n s).bpp = s.bpp := rfl
@[simp] theorem setWidth_clearCode (n : Nat) : (setWidth n s).clearCode = s.clearCode := rfl
@[simp] theorem setWidth_eofCode (n : Nat) : (setWidth n s).eofCode = s.eofCode := rfl
@[simp] theorem setWidth_quota (n : Nat) : (setWidth n s).quota = s.quota := rfl
@[simp] theorem setWidth_pendingPrefix (n : Nat) : (setWidth n s).pendingPrefix = s.pendingPrefix := rfl
@[simp] theorem setWidth_runningCode (n : Nat) : (setWidth n s).runningCode = s.runningCode := rfl
@[simp] theorem setWidth_runningBits (n : Nat) : (setWidth n s).runningBits = fit 4 n (drawn 4 .runningBits s) := rfl
@[simp] theorem setWidth_maxCode1 (n : Nat) :
    (setWidth n s).maxCode1 = fit 13 (2 ^ (fit 4 n (drawn 4 .runningBits s)).toNat) (drawn 13 .maxCode1 s) := rfl
@[simp] theorem setWidth_shiftValue (n : Nat) : (setWidth n s).shiftValue = s.shiftValue := rfl
@[simp] theorem setWidth_shiftBits (n : Nat) : (setWidth n s).shiftBits = s.shiftBits := rfl
@[simp] theorem setWidth_sbCount (n : Nat) : (setWidth n s).sbCount = s.sbCount := rfl
@[simp] theorem setWidth_sbData (n : Nat) : (setWidth n s).sbData = s.sbData := rfl
@[simp] theorem setWidth_dict (n : Nat) : (setWidth n s).dict = s.dict := rfl
@[simp] theorem setWidth_hostInput (n : Nat) : (setWidth n s).hostInput = s.hostInput := rfl
@[simp] theorem setWidth_request (n : Nat) : (setWidth n s).request = s.request := rfl
@[simp] theorem setWidth_sinkScript (n : Nat) : (setWidth n s).sinkScript = s.sinkScript := rfl
@[simp] theorem setWidth_stream (n : Nat) : (setWidth n s).stream = s.stream := rfl
@[simp] theorem setWidth_trace (n : Nat) : (setWidth n s).trace = s.trace := rfl
@[simp] theorem setWidth_response (n : Nat) : (setWidth n s).response = s.response := rfl
@[simp] theorem setWidth_dictReply (n : Nat) : (setWidth n s).dictReply = s.dictReply := rfl
@[simp] theorem setWidth_draws (n : Nat) : (setWidth n s).draws = s.draws + 1 := rfl
@[simp] theorem setWidth_slotDraw (n : Nat) : (setWidth n s).slotDraw = s.slotDraw := rfl
@[simp] theorem setWidth_params (n : Nat) : (setWidth n s).params = s.params := rfl

/-! ### wcInit -/

@[simp] theorem wcInit_fsm : (wcInit s).fsm = s.fsm := rfl
@[simp] theorem wcInit_cause : (wcInit s).cause = s.cause := rfl
@[simp] theorem wcInit_bpp : (wcInit s).bpp = s.bpp := rfl
@[simp] theorem wcInit_clearCode : (wcInit s).clearCode = s.clearCode := rfl
@[simp] theorem wcInit_eofCode : (wcInit s).eofCode = s.eofCode := rfl
@[simp] theorem wcInit_quota : (wcInit s).quota = s.quota := rfl
@[simp] theorem wcInit_pendingPrefix : (wcInit s).pendingPrefix = s.pendingPrefix := rfl
@[simp] theorem wcInit_runningCode :
    (wcInit s).runningCode = fit 13 (s.eofCode.toNat + 1) (drawn 13 .runningCode s) := rfl
@[simp] theorem wcInit_runningBits : (wcInit s).runningBits = fit 4 (s.bpp.toNat + 1) (drawn 4 .runningBits s) := rfl
@[simp] theorem wcInit_maxCode1 :
    (wcInit s).maxCode1 = fit 13 (2 ^ (fit 4 (s.bpp.toNat + 1) (drawn 4 .runningBits s)).toNat) (drawn 13 .maxCode1 s) := rfl
@[simp] theorem wcInit_shiftValue : (wcInit s).shiftValue = s.shiftValue := rfl
@[simp] theorem wcInit_shiftBits : (wcInit s).shiftBits = s.shiftBits := rfl
@[simp] theorem wcInit_sbCount : (wcInit s).sbCount = s.sbCount := rfl
@[simp] theorem wcInit_sbData : (wcInit s).sbData = s.sbData := rfl
@[simp] theorem wcInit_dict : (wcInit s).dict = s.dict := rfl
@[simp] theorem wcInit_hostInput : (wcInit s).hostInput = s.hostInput := rfl
@[simp] theorem wcInit_request : (wcInit s).request = s.request := rfl
@[simp] theorem wcInit_sinkScript : (wcInit s).sinkScript = s.sinkScript := rfl
@[simp] theorem wcInit_stream : (wcInit s).stream = s.stream := rfl
@[simp] theorem wcInit_trace : (wcInit s).trace = s.trace := rfl
@[simp] theorem wcInit_response : (wcInit s).response = s.response := rfl
@[simp] theorem wcInit_dictReply : (wcInit s).dictReply = s.dictReply := rfl
@[simp] theorem wcInit_draws : (wcInit s).draws = s.draws + 1 := rfl
@[simp] theorem wcInit_slotDraw : (wcInit s).slotDraw = s.slotDraw := rfl
@[simp] theorem wcInit_params : (wcInit s).params = s.params := rfl

/-! ### wcAdvance -/

@[simp] theorem wcAdvance_fsm : (wcAdvance s).fsm = s.fsm := rfl
@[simp] theorem wcAdvance_cause : (wcAdvance s).cause = s.cause := rfl
@[simp] theorem wcAdvance_bpp : (wcAdvance s).bpp = s.bpp := rfl
@[simp] theorem wcAdvance_clearCode : (wcAdvance s).clearCode = s.clearCode := rfl
@[simp] theorem wcAdvance_eofCode : (wcAdvance s).eofCode = s.eofCode := rfl
@[simp] theorem wcAdvance_quota : (wcAdvance s).quota = s.quota := rfl
@[simp] theorem wcAdvance_pendingPrefix : (wcAdvance s).pendingPrefix = s.pendingPrefix := rfl
@[simp] theorem wcAdvance_runningCode :
    (wcAdvance s).runningCode = fit 13 (s.runningCode.toNat + 1) (drawn 13 .runningCode s) := rfl
@[simp] theorem wcAdvance_runningBits : (wcAdvance s).runningBits = s.runningBits := rfl
@[simp] theorem wcAdvance_maxCode1 : (wcAdvance s).maxCode1 = s.maxCode1 := rfl
@[simp] theorem wcAdvance_shiftValue : (wcAdvance s).shiftValue = s.shiftValue := rfl
@[simp] theorem wcAdvance_shiftBits : (wcAdvance s).shiftBits = s.shiftBits := rfl
@[simp] theorem wcAdvance_sbCount : (wcAdvance s).sbCount = s.sbCount := rfl
@[simp] theorem wcAdvance_sbData : (wcAdvance s).sbData = s.sbData := rfl
@[simp] theorem wcAdvance_dict : (wcAdvance s).dict = s.dict := rfl
@[simp] theorem wcAdvance_hostInput : (wcAdvance s).hostInput = s.hostInput := rfl
@[simp] theorem wcAdvance_request : (wcAdvance s).request = s.request := rfl
@[simp] theorem wcAdvance_sinkScript : (wcAdvance s).sinkScript = s.sinkScript := rfl
@[simp] theorem wcAdvance_stream : (wcAdvance s).stream = s.stream := rfl
@[simp] theorem wcAdvance_trace : (wcAdvance s).trace = s.trace := rfl
@[simp] theorem wcAdvance_response : (wcAdvance s).response = s.response := rfl
@[simp] theorem wcAdvance_dictReply : (wcAdvance s).dictReply = s.dictReply := rfl
@[simp] theorem wcAdvance_draws : (wcAdvance s).draws = s.draws + 1 := rfl
@[simp] theorem wcAdvance_slotDraw : (wcAdvance s).slotDraw = s.slotDraw := rfl
@[simp] theorem wcAdvance_params : (wcAdvance s).params = s.params := rfl

/-! ### shiftIn -/

@[simp] theorem shiftIn_fsm (c : Code) : (shiftIn c s).fsm = s.fsm := rfl
@[simp] theorem shiftIn_cause (c : Code) : (shiftIn c s).cause = s.cause := rfl
@[simp] theorem shiftIn_bpp (c : Code) : (shiftIn c s).bpp = s.bpp := rfl
@[simp] theorem shiftIn_clearCode (c : Code) : (shiftIn c s).clearCode = s.clearCode := rfl
@[simp] theorem shiftIn_eofCode (c : Code) : (shiftIn c s).eofCode = s.eofCode := rfl
@[simp] theorem shiftIn_quota (c : Code) : (shiftIn c s).quota = s.quota := rfl
@[simp] theorem shiftIn_pendingPrefix (c : Code) : (shiftIn c s).pendingPrefix = s.pendingPrefix := rfl
@[simp] theorem shiftIn_runningCode (c : Code) : (shiftIn c s).runningCode = s.runningCode := rfl
@[simp] theorem shiftIn_runningBits (c : Code) : (shiftIn c s).runningBits = s.runningBits := rfl
@[simp] theorem shiftIn_maxCode1 (c : Code) : (shiftIn c s).maxCode1 = s.maxCode1 := rfl
@[simp] theorem shiftIn_shiftValue (c : Code) :
    (shiftIn c s).shiftValue = fit 19 (s.shiftValue.toNat ||| (c.toNat <<< s.shiftBits.toNat)) (drawn 19 .shiftValue s) := rfl
@[simp] theorem shiftIn_shiftBits (c : Code) :
    (shiftIn c s).shiftBits = fit 5 (s.shiftBits.toNat + s.runningBits.toNat) (drawn 5 .shiftBits s) := rfl
@[simp] theorem shiftIn_sbCount (c : Code) : (shiftIn c s).sbCount = s.sbCount := rfl
@[simp] theorem shiftIn_sbData (c : Code) : (shiftIn c s).sbData = s.sbData := rfl
@[simp] theorem shiftIn_dict (c : Code) : (shiftIn c s).dict = s.dict := rfl
@[simp] theorem shiftIn_hostInput (c : Code) : (shiftIn c s).hostInput = s.hostInput := rfl
@[simp] theorem shiftIn_request (c : Code) : (shiftIn c s).request = s.request := rfl
@[simp] theorem shiftIn_sinkScript (c : Code) : (shiftIn c s).sinkScript = s.sinkScript := rfl
@[simp] theorem shiftIn_stream (c : Code) : (shiftIn c s).stream = s.stream := rfl
@[simp] theorem shiftIn_trace (c : Code) : (shiftIn c s).trace = s.trace := rfl
@[simp] theorem shiftIn_response (c : Code) : (shiftIn c s).response = s.response := rfl
@[simp] theorem shiftIn_dictReply (c : Code) : (shiftIn c s).dictReply = s.dictReply := rfl
@[simp] theorem shiftIn_draws (c : Code) : (shiftIn c s).draws = s.draws + 1 := rfl
@[simp] theorem shiftIn_slotDraw (c : Code) : (shiftIn c s).slotDraw = s.slotDraw := rfl
@[simp] theorem shiftIn_params (c : Code) : (shiftIn c s).params = s.params := rfl

/-! ### countPixel -/

@[simp] theorem countPixel_fsm : (countPixel s).fsm = s.fsm := rfl
@[simp] theorem countPixel_cause : (countPixel s).cause = s.cause := rfl
@[simp] theorem countPixel_bpp : (countPixel s).bpp = s.bpp := rfl
@[simp] theorem countPixel_clearCode : (countPixel s).clearCode = s.clearCode := rfl
@[simp] theorem countPixel_eofCode : (countPixel s).eofCode = s.eofCode := rfl
@[simp] theorem countPixel_quota :
    (countPixel s).quota = (if s.quota = 0 then drawn 32 .quota s else s.quota - 1) := rfl
@[simp] theorem countPixel_pendingPrefix : (countPixel s).pendingPrefix = s.pendingPrefix := rfl
@[simp] theorem countPixel_runningCode : (countPixel s).runningCode = s.runningCode := rfl
@[simp] theorem countPixel_runningBits : (countPixel s).runningBits = s.runningBits := rfl
@[simp] theorem countPixel_maxCode1 : (countPixel s).maxCode1 = s.maxCode1 := rfl
@[simp] theorem countPixel_shiftValue : (countPixel s).shiftValue = s.shiftValue := rfl
@[simp] theorem countPixel_shiftBits : (countPixel s).shiftBits = s.shiftBits := rfl
@[simp] theorem countPixel_sbCount : (countPixel s).sbCount = s.sbCount := rfl
@[simp] theorem countPixel_sbData : (countPixel s).sbData = s.sbData := rfl
@[simp] theorem countPixel_dict : (countPixel s).dict = s.dict := rfl
@[simp] theorem countPixel_hostInput : (countPixel s).hostInput = s.hostInput := rfl
@[simp] theorem countPixel_request : (countPixel s).request = s.request := rfl
@[simp] theorem countPixel_sinkScript : (countPixel s).sinkScript = s.sinkScript := rfl
@[simp] theorem countPixel_stream : (countPixel s).stream = s.stream := rfl
@[simp] theorem countPixel_trace : (countPixel s).trace = s.trace := rfl
@[simp] theorem countPixel_response : (countPixel s).response = s.response := rfl
@[simp] theorem countPixel_dictReply : (countPixel s).dictReply = s.dictReply := rfl
@[simp] theorem countPixel_draws : (countPixel s).draws = s.draws + 1 := rfl
@[simp] theorem countPixel_slotDraw : (countPixel s).slotDraw = s.slotDraw := rfl
@[simp] theorem countPixel_params : (countPixel s).params = s.params := rfl

/-! ### pushFirst -/

@[simp] theorem pushFirst_fsm (p : Byte) : (pushFirst p s).fsm = .matching := rfl
@[simp] theorem pushFirst_cause (p : Byte) : (pushFirst p s).cause = s.cause := rfl
@[simp] theorem pushFirst_bpp (p : Byte) : (pushFirst p s).bpp = s.bpp := rfl
@[simp] theorem pushFirst_clearCode (p : Byte) : (pushFirst p s).clearCode = s.clearCode := rfl
@[simp] theorem pushFirst_eofCode (p : Byte) : (pushFirst p s).eofCode = s.eofCode := rfl
@[simp] theorem pushFirst_quota (p : Byte) : (pushFirst p s).quota = s.quota := rfl
@[simp] theorem pushFirst_pendingPrefix (p : Byte) : (pushFirst p s).pendingPrefix = pixelCode p := rfl
@[simp] theorem pushFirst_runningCode (p : Byte) : (pushFirst p s).runningCode = s.runningCode := rfl
@[simp] theorem pushFirst_runningBits (p : Byte) : (pushFirst p s).runningBits = s.runningBits := rfl
@[simp] theorem pushFirst_maxCode1 (p : Byte) : (pushFirst p s).maxCode1 = s.maxCode1 := rfl
@[simp] theorem pushFirst_shiftValue (p : Byte) : (pushFirst p s).shiftValue = s.shiftValue := rfl
@[simp] theorem pushFirst_shiftBits (p : Byte) : (pushFirst p s).shiftBits = s.shiftBits := rfl
@[simp] theorem pushFirst_sbCount (p : Byte) : (pushFirst p s).sbCount = s.sbCount := rfl
@[simp] theorem pushFirst_sbData (p : Byte) : (pushFirst p s).sbData = s.sbData := rfl
@[simp] theorem pushFirst_dict (p : Byte) : (pushFirst p s).dict = s.dict := rfl
@[simp] theorem pushFirst_hostInput (p : Byte) : (pushFirst p s).hostInput = s.hostInput := rfl
@[simp] theorem pushFirst_request (p : Byte) : (pushFirst p s).request = s.request := rfl
@[simp] theorem pushFirst_sinkScript (p : Byte) : (pushFirst p s).sinkScript = s.sinkScript := rfl
@[simp] theorem pushFirst_stream (p : Byte) : (pushFirst p s).stream = s.stream := rfl
@[simp] theorem pushFirst_trace (p : Byte) : (pushFirst p s).trace = s.trace := rfl
@[simp] theorem pushFirst_response (p : Byte) : (pushFirst p s).response = s.response := rfl
@[simp] theorem pushFirst_dictReply (p : Byte) : (pushFirst p s).dictReply = s.dictReply := rfl
@[simp] theorem pushFirst_draws (p : Byte) : (pushFirst p s).draws = s.draws := rfl
@[simp] theorem pushFirst_slotDraw (p : Byte) : (pushFirst p s).slotDraw = s.slotDraw := rfl
@[simp] theorem pushFirst_params (p : Byte) : (pushFirst p s).params = s.params := rfl

/-! ### retire -/

@[simp] theorem retire_fsm : (retire s).fsm = .flushed := rfl
@[simp] theorem retire_cause : (retire s).cause = s.cause := rfl
@[simp] theorem retire_bpp : (retire s).bpp = s.bpp := rfl
@[simp] theorem retire_clearCode : (retire s).clearCode = s.clearCode := rfl
@[simp] theorem retire_eofCode : (retire s).eofCode = s.eofCode := rfl
@[simp] theorem retire_quota : (retire s).quota = s.quota := rfl
@[simp] theorem retire_pendingPrefix : (retire s).pendingPrefix = drawn 12 .pendingPrefix s := rfl
@[simp] theorem retire_runningCode : (retire s).runningCode = s.runningCode := rfl
@[simp] theorem retire_runningBits : (retire s).runningBits = s.runningBits := rfl
@[simp] theorem retire_maxCode1 : (retire s).maxCode1 = s.maxCode1 := rfl
@[simp] theorem retire_shiftValue : (retire s).shiftValue = s.shiftValue := rfl
@[simp] theorem retire_shiftBits : (retire s).shiftBits = s.shiftBits := rfl
@[simp] theorem retire_sbCount : (retire s).sbCount = s.sbCount := rfl
@[simp] theorem retire_sbData : (retire s).sbData = s.sbData := rfl
@[simp] theorem retire_dict : (retire s).dict = freeDict (forgetPrefix s) := rfl
@[simp] theorem retire_hostInput : (retire s).hostInput = s.hostInput := rfl
@[simp] theorem retire_request : (retire s).request = s.request := rfl
@[simp] theorem retire_sinkScript : (retire s).sinkScript = s.sinkScript := rfl
@[simp] theorem retire_stream : (retire s).stream = s.stream := rfl
@[simp] theorem retire_trace : (retire s).trace = s.trace := rfl
@[simp] theorem retire_response : (retire s).response = s.response := rfl
@[simp] theorem retire_dictReply : (retire s).dictReply = s.dictReply := rfl
@[simp] theorem retire_draws : (retire s).draws = s.draws + 2 := rfl
@[simp] theorem retire_slotDraw : (retire s).slotDraw = s.slotDraw := rfl
@[simp] theorem retire_params : (retire s).params = s.params := rfl

/-! ### reply -/

@[simp] theorem reply_fsm (found : Option Code) : (reply found s).fsm = s.fsm := rfl
@[simp] theorem reply_cause (found : Option Code) : (reply found s).cause = s.cause := rfl
@[simp] theorem reply_bpp (found : Option Code) : (reply found s).bpp = s.bpp := rfl
@[simp] theorem reply_clearCode (found : Option Code) : (reply found s).clearCode = s.clearCode := rfl
@[simp] theorem reply_eofCode (found : Option Code) : (reply found s).eofCode = s.eofCode := rfl
@[simp] theorem reply_quota (found : Option Code) : (reply found s).quota = s.quota := rfl
@[simp] theorem reply_pendingPrefix (found : Option Code) : (reply found s).pendingPrefix = s.pendingPrefix := rfl
@[simp] theorem reply_runningCode (found : Option Code) : (reply found s).runningCode = s.runningCode := rfl
@[simp] theorem reply_runningBits (found : Option Code) : (reply found s).runningBits = s.runningBits := rfl
@[simp] theorem reply_maxCode1 (found : Option Code) : (reply found s).maxCode1 = s.maxCode1 := rfl
@[simp] theorem reply_shiftValue (found : Option Code) : (reply found s).shiftValue = s.shiftValue := rfl
@[simp] theorem reply_shiftBits (found : Option Code) : (reply found s).shiftBits = s.shiftBits := rfl
@[simp] theorem reply_sbCount (found : Option Code) : (reply found s).sbCount = s.sbCount := rfl
@[simp] theorem reply_sbData (found : Option Code) : (reply found s).sbData = s.sbData := rfl
@[simp] theorem reply_dict (found : Option Code) : (reply found s).dict = s.dict := rfl
@[simp] theorem reply_hostInput (found : Option Code) : (reply found s).hostInput = s.hostInput := rfl
@[simp] theorem reply_request (found : Option Code) : (reply found s).request = s.request := rfl
@[simp] theorem reply_sinkScript (found : Option Code) : (reply found s).sinkScript = s.sinkScript := rfl
@[simp] theorem reply_stream (found : Option Code) : (reply found s).stream = s.stream := rfl
@[simp] theorem reply_trace (found : Option Code) : (reply found s).trace = s.trace := rfl
@[simp] theorem reply_response (found : Option Code) : (reply found s).response = s.response := rfl
@[simp] theorem reply_dictReply (found : Option Code) :
    (reply found s).dictReply = some (replyWord found.isSome (found.getD (drawn 12 .replyCode s))) := rfl
@[simp] theorem reply_draws (found : Option Code) : (reply found s).draws = s.draws + 1 := rfl
@[simp] theorem reply_slotDraw (found : Option Code) : (reply found s).slotDraw = s.slotDraw := rfl
@[simp] theorem reply_params (found : Option Code) : (reply found s).params = s.params := rfl

/-! ### shiftOut -/

@[simp] theorem shiftOut_fsm : (shiftOut s).fsm = s.fsm := rfl
@[simp] theorem shiftOut_cause : (shiftOut s).cause = s.cause := rfl
@[simp] theorem shiftOut_bpp : (shiftOut s).bpp = s.bpp := rfl
@[simp] theorem shiftOut_clearCode : (shiftOut s).clearCode = s.clearCode := rfl
@[simp] theorem shiftOut_eofCode : (shiftOut s).eofCode = s.eofCode := rfl
@[simp] theorem shiftOut_quota : (shiftOut s).quota = s.quota := rfl
@[simp] theorem shiftOut_pendingPrefix : (shiftOut s).pendingPrefix = s.pendingPrefix := rfl
@[simp] theorem shiftOut_runningCode : (shiftOut s).runningCode = s.runningCode := rfl
@[simp] theorem shiftOut_runningBits : (shiftOut s).runningBits = s.runningBits := rfl
@[simp] theorem shiftOut_maxCode1 : (shiftOut s).maxCode1 = s.maxCode1 := rfl
@[simp] theorem shiftOut_shiftValue : (shiftOut s).shiftValue = s.shiftValue >>> 8 := rfl
@[simp] theorem shiftOut_shiftBits : (shiftOut s).shiftBits = BitVec.ofNat 5 (s.shiftBits.toNat - 8) := rfl
@[simp] theorem shiftOut_sbCount : (shiftOut s).sbCount = s.sbCount := rfl
@[simp] theorem shiftOut_sbData : (shiftOut s).sbData = s.sbData := rfl
@[simp] theorem shiftOut_dict : (shiftOut s).dict = s.dict := rfl
@[simp] theorem shiftOut_hostInput : (shiftOut s).hostInput = s.hostInput := rfl
@[simp] theorem shiftOut_request : (shiftOut s).request = s.request := rfl
@[simp] theorem shiftOut_sinkScript : (shiftOut s).sinkScript = s.sinkScript := rfl
@[simp] theorem shiftOut_stream : (shiftOut s).stream = s.stream := rfl
@[simp] theorem shiftOut_trace : (shiftOut s).trace = s.trace := rfl
@[simp] theorem shiftOut_response : (shiftOut s).response = s.response := rfl
@[simp] theorem shiftOut_dictReply : (shiftOut s).dictReply = s.dictReply := rfl
@[simp] theorem shiftOut_draws : (shiftOut s).draws = s.draws := rfl
@[simp] theorem shiftOut_slotDraw : (shiftOut s).slotDraw = s.slotDraw := rfl
@[simp] theorem shiftOut_params : (shiftOut s).params = s.params := rfl

/-! ### setPrefix -/

@[simp] theorem setPrefix_fsm (c : Code) : (setPrefix c s).fsm = s.fsm := rfl
@[simp] theorem setPrefix_cause (c : Code) : (setPrefix c s).cause = s.cause := rfl
@[simp] theorem setPrefix_bpp (c : Code) : (setPrefix c s).bpp = s.bpp := rfl
@[simp] theorem setPrefix_clearCode (c : Code) : (setPrefix c s).clearCode = s.clearCode := rfl
@[simp] theorem setPrefix_eofCode (c : Code) : (setPrefix c s).eofCode = s.eofCode := rfl
@[simp] theorem setPrefix_quota (c : Code) : (setPrefix c s).quota = s.quota := rfl
@[simp] theorem setPrefix_pendingPrefix (c : Code) : (setPrefix c s).pendingPrefix = c := rfl
@[simp] theorem setPrefix_runningCode (c : Code) : (setPrefix c s).runningCode = s.runningCode := rfl
@[simp] theorem setPrefix_runningBits (c : Code) : (setPrefix c s).runningBits = s.runningBits := rfl
@[simp] theorem setPrefix_maxCode1 (c : Code) : (setPrefix c s).maxCode1 = s.maxCode1 := rfl
@[simp] theorem setPrefix_shiftValue (c : Code) : (setPrefix c s).shiftValue = s.shiftValue := rfl
@[simp] theorem setPrefix_shiftBits (c : Code) : (setPrefix c s).shiftBits = s.shiftBits := rfl
@[simp] theorem setPrefix_sbCount (c : Code) : (setPrefix c s).sbCount = s.sbCount := rfl
@[simp] theorem setPrefix_sbData (c : Code) : (setPrefix c s).sbData = s.sbData := rfl
@[simp] theorem setPrefix_dict (c : Code) : (setPrefix c s).dict = s.dict := rfl
@[simp] theorem setPrefix_hostInput (c : Code) : (setPrefix c s).hostInput = s.hostInput := rfl
@[simp] theorem setPrefix_request (c : Code) : (setPrefix c s).request = s.request := rfl
@[simp] theorem setPrefix_sinkScript (c : Code) : (setPrefix c s).sinkScript = s.sinkScript := rfl
@[simp] theorem setPrefix_stream (c : Code) : (setPrefix c s).stream = s.stream := rfl
@[simp] theorem setPrefix_trace (c : Code) : (setPrefix c s).trace = s.trace := rfl
@[simp] theorem setPrefix_response (c : Code) : (setPrefix c s).response = s.response := rfl
@[simp] theorem setPrefix_dictReply (c : Code) : (setPrefix c s).dictReply = s.dictReply := rfl
@[simp] theorem setPrefix_draws (c : Code) : (setPrefix c s).draws = s.draws := rfl
@[simp] theorem setPrefix_slotDraw (c : Code) : (setPrefix c s).slotDraw = s.slotDraw := rfl
@[simp] theorem setPrefix_params (c : Code) : (setPrefix c s).params = s.params := rfl

/-! ### dictPut -/

@[simp] theorem dictPut_fsm (key : Key) (code : Code) : (dictPut key code s).fsm = s.fsm := rfl
@[simp] theorem dictPut_cause (key : Key) (code : Code) : (dictPut key code s).cause = s.cause := rfl
@[simp] theorem dictPut_bpp (key : Key) (code : Code) : (dictPut key code s).bpp = s.bpp := rfl
@[simp] theorem dictPut_clearCode (key : Key) (code : Code) : (dictPut key code s).clearCode = s.clearCode := rfl
@[simp] theorem dictPut_eofCode (key : Key) (code : Code) : (dictPut key code s).eofCode = s.eofCode := rfl
@[simp] theorem dictPut_quota (key : Key) (code : Code) : (dictPut key code s).quota = s.quota := rfl
@[simp] theorem dictPut_pendingPrefix (key : Key) (code : Code) :
    (dictPut key code s).pendingPrefix = s.pendingPrefix := rfl
@[simp] theorem dictPut_runningCode (key : Key) (code : Code) :
    (dictPut key code s).runningCode = s.runningCode := rfl
@[simp] theorem dictPut_runningBits (key : Key) (code : Code) :
    (dictPut key code s).runningBits = s.runningBits := rfl
@[simp] theorem dictPut_maxCode1 (key : Key) (code : Code) : (dictPut key code s).maxCode1 = s.maxCode1 := rfl
@[simp] theorem dictPut_shiftValue (key : Key) (code : Code) : (dictPut key code s).shiftValue = s.shiftValue := rfl
@[simp] theorem dictPut_shiftBits (key : Key) (code : Code) : (dictPut key code s).shiftBits = s.shiftBits := rfl
@[simp] theorem dictPut_sbCount (key : Key) (code : Code) : (dictPut key code s).sbCount = s.sbCount := rfl
@[simp] theorem dictPut_sbData (key : Key) (code : Code) : (dictPut key code s).sbData = s.sbData := rfl
@[simp] theorem dictPut_dict (key : Key) (code : Code) :
    (dictPut key code s).dict = storePut s.dict key.toNat code := rfl
@[simp] theorem dictPut_hostInput (key : Key) (code : Code) : (dictPut key code s).hostInput = s.hostInput := rfl
@[simp] theorem dictPut_request (key : Key) (code : Code) : (dictPut key code s).request = s.request := rfl
@[simp] theorem dictPut_sinkScript (key : Key) (code : Code) : (dictPut key code s).sinkScript = s.sinkScript := rfl
@[simp] theorem dictPut_stream (key : Key) (code : Code) : (dictPut key code s).stream = s.stream := rfl
@[simp] theorem dictPut_trace (key : Key) (code : Code) : (dictPut key code s).trace = s.trace := rfl
@[simp] theorem dictPut_response (key : Key) (code : Code) : (dictPut key code s).response = s.response := rfl
@[simp] theorem dictPut_dictReply (key : Key) (code : Code) : (dictPut key code s).dictReply = s.dictReply := rfl
@[simp] theorem dictPut_draws (key : Key) (code : Code) : (dictPut key code s).draws = s.draws := rfl
@[simp] theorem dictPut_slotDraw (key : Key) (code : Code) : (dictPut key code s).slotDraw = s.slotDraw := rfl
@[simp] theorem dictPut_params (key : Key) (code : Code) : (dictPut key code s).params = s.params := rfl

/-! ### loadSession -/

@[simp] theorem loadSession_fsm (req : BitVec 4) (quota : BitVec 32) :
    (loadSession req quota s).fsm = .awaitFirst := rfl
@[simp] theorem loadSession_cause (req : BitVec 4) (quota : BitVec 32) :
    (loadSession req quota s).cause = s.cause := rfl
@[simp] theorem loadSession_bpp (req : BitVec 4) (quota : BitVec 32) :
    (loadSession req quota s).bpp = effectiveBpp req := rfl
@[simp] theorem loadSession_clearCode (req : BitVec 4) (quota : BitVec 32) :
    (loadSession req quota s).clearCode = BitVec.ofNat 9 (2 ^ (effectiveBpp req).toNat) := rfl
@[simp] theorem loadSession_eofCode (req : BitVec 4) (quota : BitVec 32) :
    (loadSession req quota s).eofCode = BitVec.ofNat 9 (2 ^ (effectiveBpp req).toNat + 1) := rfl
@[simp] theorem loadSession_quota (req : BitVec 4) (quota : BitVec 32) :
    (loadSession req quota s).quota = loadedQuota quota s := rfl
@[simp] theorem loadSession_pendingPrefix (req : BitVec 4) (quota : BitVec 32) :
    (loadSession req quota s).pendingPrefix = s.pendingPrefix := rfl
@[simp] theorem loadSession_runningCode (req : BitVec 4) (quota : BitVec 32) :
    (loadSession req quota s).runningCode = s.runningCode := rfl
@[simp] theorem loadSession_runningBits (req : BitVec 4) (quota : BitVec 32) :
    (loadSession req quota s).runningBits = s.runningBits := rfl
@[simp] theorem loadSession_maxCode1 (req : BitVec 4) (quota : BitVec 32) :
    (loadSession req quota s).maxCode1 = s.maxCode1 := rfl
@[simp] theorem loadSession_shiftValue (req : BitVec 4) (quota : BitVec 32) :
    (loadSession req quota s).shiftValue = 0 := rfl
@[simp] theorem loadSession_shiftBits (req : BitVec 4) (quota : BitVec 32) :
    (loadSession req quota s).shiftBits = 0 := rfl
@[simp] theorem loadSession_sbCount (req : BitVec 4) (quota : BitVec 32) :
    (loadSession req quota s).sbCount = s.sbCount := rfl
@[simp] theorem loadSession_sbData (req : BitVec 4) (quota : BitVec 32) :
    (loadSession req quota s).sbData = s.sbData := rfl
@[simp] theorem loadSession_dict (req : BitVec 4) (quota : BitVec 32) : (loadSession req quota s).dict = s.dict := rfl
@[simp] theorem loadSession_hostInput (req : BitVec 4) (quota : BitVec 32) :
    (loadSession req quota s).hostInput = s.hostInput := rfl
@[simp] theorem loadSession_request (req : BitVec 4) (quota : BitVec 32) :
    (loadSession req quota s).request = s.request := rfl
@[simp] theorem loadSession_sinkScript (req : BitVec 4) (quota : BitVec 32) :
    (loadSession req quota s).sinkScript = s.sinkScript := rfl
@[simp] theorem loadSession_stream (req : BitVec 4) (quota : BitVec 32) :
    (loadSession req quota s).stream = s.stream := rfl
@[simp] theorem loadSession_trace (req : BitVec 4) (quota : BitVec 32) :
    (loadSession req quota s).trace = s.trace := rfl
@[simp] theorem loadSession_response (req : BitVec 4) (quota : BitVec 32) :
    (loadSession req quota s).response = s.response := rfl
@[simp] theorem loadSession_dictReply (req : BitVec 4) (quota : BitVec 32) :
    (loadSession req quota s).dictReply = s.dictReply := rfl
@[simp] theorem loadSession_draws (req : BitVec 4) (quota : BitVec 32) :
    (loadSession req quota s).draws = s.draws := rfl
@[simp] theorem loadSession_slotDraw (req : BitVec 4) (quota : BitVec 32) :
    (loadSession req quota s).slotDraw = s.slotDraw := rfl
@[simp] theorem loadSession_params (req : BitVec 4) (quota : BitVec 32) :
    (loadSession req quota s).params = s.params := rfl

end Sys2Proof.Machine
end

