-- ==== Sys2Proof/Laws/Store.lean ====
section
/-!
SUPPORT. The laws of the two stores: a read after a write, the canonical form, the number of entries, and that every
memory operation keeps `Memory.wf`.
-/

namespace Sys2Proof.Machine

variable {β : Type}

@[simp] theorem storeGet_nil (a : Nat) : storeGet ([] : Store β) a = none := rfl

theorem storeGet_put_same (m : Store β) (a : Nat) (v : β) : storeGet (storePut m a v) a = some v := by
  induction m with
  | nil => simp [storePut, storeGet]
  | cons e rest ih =>
    obtain ⟨k, w⟩ := e
    simp only [storePut]
    split
    · simp [storeGet]
    · split
      · simp [storeGet]
      · have hk : k ≠ a := fun h => ‹¬a = k› h.symm
        simp [storeGet, hk, ih]

theorem storeGet_put_other (m : Store β) (a : Nat) (v : β) {b : Nat} (h : b ≠ a) :
    storeGet (storePut m a v) b = storeGet m b := by
  have hab : a ≠ b := fun e => h e.symm
  induction m with
  | nil => simp [storePut, storeGet, hab]
  | cons e rest ih =>
    obtain ⟨k, w⟩ := e
    simp only [storePut]
    split
    · simp [storeGet, hab]
    · split
      · rename_i hk
        subst hk
        simp [storeGet, hab]
      · simp [storeGet, ih]

theorem storeGet_eq_none {m : Store β} {a : Nat} : storeGet m a = none ↔ ∀ e ∈ m, e.1 ≠ a := by
  induction m with
  | nil => simp
  | cons e rest ih =>
    obtain ⟨k, w⟩ := e
    by_cases hk : k = a <;> simp [storeGet, hk, ih]

theorem mem_of_storeGet {m : Store β} {a : Nat} {v : β} (h : storeGet m a = some v) : (a, v) ∈ m := by
  induction m with
  | nil => simp at h
  | cons e rest ih =>
    obtain ⟨k, w⟩ := e
    by_cases hk : k = a
    · simp_all [storeGet]
    · simp only [storeGet, hk, if_false] at h
      exact List.mem_cons_of_mem _ (ih h)

theorem mem_storePut {m : Store β} {a : Nat} {v : β} {e : Nat × β} (h : e ∈ storePut m a v) : e = (a, v) ∨ e ∈ m := by
  induction m with
  | nil => simpa [storePut] using h
  | cons x rest ih =>
    obtain ⟨k, w⟩ := x
    simp only [storePut] at h
    split at h
    · simpa using h
    · split at h
      · simp only [List.mem_cons] at h ⊢
        tauto
      · simp only [List.mem_cons] at h ⊢
        rcases h with h | h
        · exact .inr (.inl h)
        · rcases ih h with h | h
          · exact .inl h
          · exact .inr (.inr h)

/-- A write keeps the canonical form. -/
theorem storePut_wf {m : Store β} (h : storeWf m) (a : Nat) (v : β) : storeWf (storePut m a v) := by
  induction m with
  | nil => simp [storePut, storeWf]
  | cons e rest ih =>
    obtain ⟨k, w⟩ := e
    obtain ⟨hlow, hrest⟩ := List.pairwise_cons.mp h
    simp only [storePut]
    split
    · rename_i hak
      refine List.pairwise_cons.mpr ⟨?_, h⟩
      intro x hx
      rcases List.mem_cons.mp hx with rfl | hx
      · exact hak
      · exact Nat.lt_trans hak (hlow x hx)
    · split
      · rename_i hak
        subst hak
        exact List.pairwise_cons.mpr ⟨hlow, hrest⟩
      · refine List.pairwise_cons.mpr ⟨?_, ih hrest⟩
        intro x hx
        rcases mem_storePut hx with rfl | hx
        · show k < a
          omega
        · exact hlow x hx

/-- A write to an absent address adds one entry. -/
theorem storePut_length {m : Store β} {a : Nat} (h : storeGet m a = none) (v : β) :
    (storePut m a v).length = m.length + 1 := by
  induction m with
  | nil => rfl
  | cons e rest ih =>
    obtain ⟨k, w⟩ := e
    by_cases hk : k = a
    · simp [storeGet, hk] at h
    · have hka : ¬ a = k := fun e => hk e.symm
      simp only [storeGet, hk, if_false] at h
      simp only [storePut, hka, if_false]
      split
      · rfl
      · simp [ih h]

/-! ### The memory operations keep the canonical form -/

theorem Memory.wf_reset : Memory.wf State.reset := by simp [Memory.wf, State.reset, storeWf]

/-- The canonical form depends on the two stores alone. -/
theorem Memory.wf_congr {s t : State} (hd : t.dict = s.dict) (hb : t.sbData = s.sbData) (h : Memory.wf s) :
    Memory.wf t := by
  simpa [Memory.wf, hd, hb] using h

theorem dictClearAll_wf {s : State} (h : Memory.wf s) : Memory.wf (dictClearAll s) :=
  ⟨⟨List.Pairwise.nil, by simp [dictClearAll]⟩, h.2⟩

theorem dictWrite_wf {s t : State} {key : Key} {code : Code} (h : Memory.wf s) (hw : dictWrite key code s = .ok t) :
    Memory.wf t := by
  unfold dictWrite at hw
  split at hw
  · cases hw
  · split at hw
    · cases hw
    · cases hw
      refine ⟨⟨storePut_wf h.1.1 _ _, ?_⟩, h.2⟩
      intro e he
      rcases mem_storePut he with rfl | he
      · exact key.isLt
      · exact h.1.2 e he

theorem bufWrite_wf {s : State} (i : BitVec 8) (b : Byte) (h : Memory.wf s) : Memory.wf (bufWrite i b s) := by
  unfold bufWrite
  split
  · exact h
  · rename_i hi
    refine ⟨h.1, storePut_wf h.2.1 _ _, ?_⟩
    intro e he
    rcases mem_storePut he with rfl | he
    · have h1 := i.isLt
      have h0 : i.toNat ≠ 0 := fun h0 => hi (BitVec.eq_of_toNat_eq (by simpa using h0))
      simp only [Config.sbMax]
      omega
    · exact h.2.2 e he

theorem bufEmpty_wf {s : State} (h : Memory.wf s) : Memory.wf (bufEmpty s) :=
  ⟨h.1, List.Pairwise.nil, by simp [bufEmpty]⟩

theorem freeDict_wf (s : State) : storeWf (freeDict s) ∧ ∀ e ∈ freeDict s, e.1 < 2 ^ 20 := by
  suffices H : ∀ (l : List (Key × Code)) (d : Store Code), (storeWf d ∧ ∀ e ∈ d, e.1 < 2 ^ 20) →
      storeWf (l.foldl (fun d e => storePut d e.1.toNat e.2) d) ∧
        ∀ e ∈ l.foldl (fun d e => storePut d e.1.toNat e.2) d, e.1 < 2 ^ 20 from
    H _ _ ⟨List.Pairwise.nil, by simp⟩
  intro l
  induction l with
  | nil => exact fun _ h => h
  | cons x l ih =>
    intro d hd
    refine ih _ ⟨storePut_wf hd.1 _ _, fun e he => ?_⟩
    rcases mem_storePut he with rfl | he
    · exact x.1.isLt
    · exact hd.2 e he

theorem forgetDict_wf {s : State} (h : Memory.wf s) : Memory.wf (forgetDict s) := ⟨freeDict_wf s, h.2⟩

theorem unspecify_wf (s : State) : Memory.wf (unspecify s) :=
  ⟨freeDict_wf s, List.Pairwise.nil, by simp [unspecify]⟩

theorem resetCore_wf (s : State) : Memory.wf (resetCore s) := unspecify_wf s

theorem raiseError_wf {s : State} (k : ErrorKind) (h : Memory.wf s) : Memory.wf (raiseError k s) := by
  cases k
  · exact unspecify_wf s
  all_goals exact h

end Sys2Proof.Machine
end

