-- ==== Sys2Proof/Laws/Run.lean ====
section
/-!
SUPPORT. How operations compose and end, and everything the sink and the buffer can do: one inversion lemma for each
shared operation, cited instead of unfolded.
-/

namespace Sys2Proof.Machine

/-! ### Composition -/

@[simp] theorem andThen_done (s : State) (f : State → Run) : (Run.done s).andThen f = f s := rfl

@[simp] theorem andThen_raised (k : ErrorKind) (s : State) (f : State → Run) :
    (Run.raised k s).andThen f = .raised k s := rfl

theorem andThen_assoc (r : Run) (f g : State → Run) :
    (r.andThen f).andThen g = r.andThen (fun s => (f s).andThen g) := by
  cases r <;> rfl

theorem andThen_eq_done {r : Run} {f : State → Run} {t : State} :
    r.andThen f = .done t ↔ ∃ s, r = .done s ∧ f s = .done t := by
  cases r <;> simp [Run.andThen]

theorem andThen_eq_raised {r : Run} {f : State → Run} {k : ErrorKind} {t : State} :
    r.andThen f = .raised k t ↔ r = .raised k t ∨ ∃ s, r = .done s ∧ f s = .raised k t := by
  cases r <;> simp [Run.andThen]

@[simp] theorem finish_done (s : State) : finish (.done s) = s := rfl

@[simp] theorem finish_raised (k : ErrorKind) (s : State) : finish (.raised k s) = raiseError k s := rfl

/-- The state at which an operation ends, completed or not. -/
def Run.last : Run → State
  | .done s => s
  | .raised _ s => s

@[simp] theorem last_done (s : State) : (Run.done s).last = s := rfl

@[simp] theorem last_raised (k : ErrorKind) (s : State) : (Run.raised k s).last = s := rfl

/-! ### Errors -/

/-- The control state and the response after an error (R206). -/
theorem raiseError_control (k : ErrorKind) (s : State) :
    (raiseError k s).fsm = .poisoned ∧
      (raiseError k s).cause = (if s.fsm = .poisoned then s.cause else some k) ∧
      (raiseError k s).response = some (0#5 ++ statusCode (some k)) := by
  refine ⟨rfl, rfl, ?_⟩
  cases k <;> simp [raiseError, responseWord, showsBpp, isDone, statusCode] <;> decide

/-- No error touches the host's side, the output or the answers still to come (R206, R208). -/
theorem raiseError_outside (k : ErrorKind) (s : State) :
    (raiseError k s).trace = s.trace ∧ (raiseError k s).stream = s.stream ∧
      (raiseError k s).sinkScript = s.sinkScript ∧ (raiseError k s).hostInput = s.hostInput ∧
      (raiseError k s).request = s.request ∧ (raiseError k s).params = s.params ∧
      (raiseError k s).dictReply = s.dictReply := by
  cases k <;> exact ⟨rfl, rfl, rfl, rfl, rfl, rfl, rfl⟩

/-! ### The sink -/

/-- Everything SINK.WRITE can do (R183). -/
theorem sinkWrite_cases (bytes : List Byte) (s : State) :
    (nextAnswer s = .ok ∧ sinkWrite bytes s = .done (sinkAnswered bytes s)) ∨
      (nextAnswer s = .fail ∧ sinkWrite bytes s = .raised .sinkWriteFailure (sinkAnswered bytes s)) := by
  unfold sinkWrite
  cases nextAnswer s <;> simp

theorem sinkWrite_ok {s : State} (h : nextAnswer s = .ok) (bytes : List Byte) :
    sinkWrite bytes s = .done (sinkAnswered bytes s) := by
  simp [sinkWrite, h]

theorem sinkWrite_fail {s : State} (h : nextAnswer s = .fail) (bytes : List Byte) :
    sinkWrite bytes s = .raised .sinkWriteFailure (sinkAnswered bytes s) := by
  simp [sinkWrite, h]

theorem nextAnswer_cons {s : State} {a : Config.Answer} {rest : List Config.Answer} (h : s.sinkScript = a :: rest) :
    nextAnswer s = a := by
  simp [nextAnswer, h]

@[simp] theorem streamGain_ok {s : State} (h : nextAnswer s = .ok) (bytes : List Byte) : streamGain s bytes = bytes := by
  simp [streamGain, h]

/-! ### The buffer -/

@[simp] theorem bufRead_zero (s : State) : bufRead s 0#8 = s.sbCount := by simp [bufRead]

theorem bufWrite_read_same (s : State) {i : BitVec 8} (hi : i ≠ 0) (b : Byte) : bufRead (bufWrite i b s) i = b := by
  rw [bufWrite, if_neg hi, bufRead, if_neg hi]
  simp only [storeGet_put_same, Option.getD_some]

theorem bufWrite_read_other (s : State) {i j : BitVec 8} (hi : i ≠ 0) (hj : j ≠ i) (b : Byte) :
    bufRead (bufWrite i b s) j = bufRead s j := by
  have hn : j.toNat ≠ i.toNat := fun h => hj (BitVec.eq_of_toNat_eq h)
  rw [bufWrite, if_neg hi]
  simp only [bufRead, storeGet_put_other _ _ _ hn]

@[simp] theorem heldBytes_length (s : State) : (heldBytes s).length = s.sbCount.toNat := by simp [heldBytes]

/-- The held payload depends on the count, the slots and their draw alone. -/
theorem heldBytes_congr {s t : State} (hc : t.sbCount = s.sbCount) (hd : t.sbData = s.sbData)
    (hs : t.slotDraw = s.slotDraw) : heldBytes t = heldBytes s := by
  simp [heldBytes, bufRead, hc, hd, hs]

@[simp] theorem heldBytes_bufEmpty (s : State) : heldBytes (bufEmpty s) = [] := by simp [heldBytes]

/-- SB.PUT's second part below a full buffer: one more byte is held, at the next slot, and no field but the buffer's
changes (R181). -/
theorem putByte_spec {s : State} (h : s.sbCount.toNat < 255) (b : Byte) :
    (putByte b s).sbCount.toNat = s.sbCount.toNat + 1 ∧
      putByte b s = { s with sbCount := s.sbCount + 1, sbData := storePut s.sbData (s.sbCount.toNat + 1) b } := by
  have h1 : (s.sbCount + 1).toNat = s.sbCount.toNat + 1 := by
    rw [BitVec.toNat_add]
    simp
    omega
  have h0 : s.sbCount + 1 ≠ 0 := by
    intro h0
    rw [h0] at h1
    simp at h1
  refine ⟨?_, ?_⟩
  · rw [putByte, bufWrite, if_neg h0]
    exact h1
  · rw [putByte, bufWrite, if_neg h0, h1]

theorem putByte_held {s : State} (h : s.sbCount.toNat < 255) (b : Byte) :
    heldBytes (putByte b s) = heldBytes s ++ [b] := by
  obtain ⟨hc, he⟩ := putByte_spec h b
  unfold heldBytes
  rw [hc, List.range_succ, List.map_append, List.map_singleton]
  congr 1
  · apply List.map_congr_left
    intro i hi
    have hi := List.mem_range.mp hi
    have hn : (BitVec.ofNat 8 (i + 1)).toNat = i + 1 := by
      rw [BitVec.toNat_ofNat]
      omega
    have h0 : BitVec.ofNat 8 (i + 1) ≠ 0 := by
      intro h0
      rw [h0] at hn
      simp at hn
    simp only [bufRead, he, if_neg h0, hn]
    rw [storeGet_put_other _ _ _ (by omega)]
  · have hn : (BitVec.ofNat 8 (s.sbCount.toNat + 1)).toNat = s.sbCount.toNat + 1 := by
      rw [BitVec.toNat_ofNat]
      omega
    have h0 : BitVec.ofNat 8 (s.sbCount.toNat + 1) ≠ 0 := by
      intro h0
      rw [h0] at hn
      simp at hn
    simp only [bufRead, he, if_neg h0, hn, storeGet_put_same, Option.getD_some]

/-- Everything SB.PUT can do: below a full buffer it stores; at a full one it writes the block and stores, or the write
fails and the byte is not stored (R181). -/
theorem sbPut_cases (b : Byte) (s : State) :
    (s.sbCount.toNat < 255 ∧ sbPut b s = .done (putByte b s)) ∨
      (s.sbCount.toNat = 255 ∧ nextAnswer s = .ok ∧
        sbPut b s = .done (putByte b (bufEmpty (sinkAnswered (heldBlock s) s)))) ∨
      (s.sbCount.toNat = 255 ∧ nextAnswer s = .fail ∧
        sbPut b s = .raised .sinkWriteFailure (sinkAnswered (heldBlock s) s)) := by
  have hlt := s.sbCount.isLt
  by_cases h : s.sbCount.toNat = 255
  · rcases sinkWrite_cases (heldBlock s) s with ⟨ha, hw⟩ | ⟨ha, hw⟩
    · exact .inr (.inl ⟨h, ha, by simp [sbPut, putRoom, Config.sbMax, h, hw]⟩)
    · exact .inr (.inr ⟨h, ha, by simp [sbPut, putRoom, Config.sbMax, h, hw]⟩)
  · exact .inl ⟨by omega, by simp [sbPut, putRoom, Config.sbMax, h]⟩

/-- The block that leaves a buffer with a payload is a SUBBLOCK's bytes: the count, then as many (R28, R75). -/
theorem heldBlock_eq (s : State) : heldBlock s = s.sbCount :: heldBytes s := by
  rw [heldBlock, show bufRead s 0 = s.sbCount from bufRead_zero s]

/-- Everything SB.TERMINATE's first part can do (R182). -/
theorem flushPartial_cases (s : State) :
    (s.sbCount = 0 ∧ flushPartial s = .done s) ∨
      (s.sbCount ≠ 0 ∧ nextAnswer s = .ok ∧
        flushPartial s = .done (bufEmpty (sinkAnswered (heldBlock s) s))) ∨
      (s.sbCount ≠ 0 ∧ nextAnswer s = .fail ∧
        flushPartial s = .raised .sinkWriteFailure (sinkAnswered (heldBlock s) s)) := by
  by_cases h : s.sbCount = 0
  · exact .inl ⟨h, by simp [flushPartial, h]⟩
  · rcases sinkWrite_cases (heldBlock s) s with ⟨ha, hw⟩ | ⟨ha, hw⟩
    · exact .inr (.inl ⟨h, ha, by rw [flushPartial, if_neg h, hw]; rfl⟩)
    · exact .inr (.inr ⟨h, ha, by rw [flushPartial, if_neg h, hw]; rfl⟩)

/-- Everything DICT.INSERT's write can do (R52, R103). -/
theorem dictWrite_cases (key : Key) (code : Code) (s : State) :
    (dictRead s key = none ∧ s.dict.length < s.params.lzMaxCode ∧
        dictWrite key code s = .ok (dictPut key code s)) ∨
      (dictRead s key = none ∧ s.params.lzMaxCode ≤ s.dict.length ∧ dictWrite key code s = .error .dictAtCapacity) ∨
      (dictRead s key ≠ none ∧ dictWrite key code s = .error .dictDuplicateKey) := by
  unfold dictWrite
  cases hr : dictRead s key with
  | some c => exact .inr (.inr ⟨by simp, by simp⟩)
  | none =>
    by_cases hc : s.params.lzMaxCode ≤ s.dict.length
    · exact .inr (.inl ⟨rfl, hc, by simp [hc]⟩)
    · exact .inl ⟨rfl, by omega, by simp [hc]⟩

end Sys2Proof.Machine
end

