-- ==== Sys2Proof/Laws/Width.lean ====
section
/-!
SUPPORT. Everything the width controller does where its results fit their registers (spec/42_width_controller.md).
-/

namespace Sys2Proof.Machine

/-- A width of at most twelve bits and its threshold enter their registers exactly. -/
theorem setWidth_spec {n : Nat} (h : n ≤ 12) (s : State) :
    (setWidth n s).runningBits.toNat = n ∧ (setWidth n s).maxCode1.toNat = 2 ^ n := by
  have h1 : (setWidth n s).runningBits.toNat = n := by
    rw [setWidth_runningBits, fit_toNat _ (by omega)]
  refine ⟨h1, ?_⟩
  have h2 : (2 : Nat) ^ n < 2 ^ 13 := Nat.pow_lt_pow_right (by decide) (by omega)
  rw [setWidth_maxCode1]
  rw [setWidth_runningBits] at h1
  rw [h1, fit_toNat _ h2]

/-- WC.INIT (R151). -/
theorem wcInit_spec {s : State} (h : s.bpp.toNat ≤ 11) :
    (wcInit s).runningCode.toNat = s.eofCode.toNat + 1 ∧ (wcInit s).runningBits.toNat = s.bpp.toNat + 1 ∧
      (wcInit s).maxCode1.toNat = 2 ^ (s.bpp.toNat + 1) := by
  have he := s.eofCode.isLt
  refine ⟨?_, setWidth_spec (by omega) _⟩
  rw [wcInit_runningCode, fit_toNat _ (by omega)]

/-- WC.ADVANCE (R152). -/
theorem wcAdvance_spec {s : State} (h : s.runningCode.toNat < 4096) :
    (wcAdvance s).runningCode.toNat = s.runningCode.toNat + 1 := by
  rw [wcAdvance_runningCode, fit_toNat _ (by omega)]

/-- Everything WC.GROW can do (R153, R154). -/
theorem wcGrow_cases (s : State) :
    (s.maxCode1.toNat ≤ s.runningCode.toNat ∧ s.runningBits.toNat < s.params.lzBits ∧
        wcGrow s = setWidth (s.runningBits.toNat + 1) s) ∨
      (¬ (s.maxCode1.toNat ≤ s.runningCode.toNat ∧ s.runningBits.toNat < s.params.lzBits) ∧ wcGrow s = s) := by
  by_cases h : s.maxCode1.toNat ≤ s.runningCode.toNat ∧ s.runningBits.toNat < s.params.lzBits
  · exact .inl ⟨h.1, h.2, by simp [wcGrow, h]⟩
  · exact .inr ⟨h, by rw [wcGrow, if_neg h]⟩

/-- WC.GROW leaves the width `grownBits` and every register but its own two (R153). -/
theorem wcGrow_spec {s : State} (h : s.params.lzBits ≤ 12) :
    (wcGrow s).runningBits.toNat = grownBits s ∧ (wcGrow s).runningCode = s.runningCode := by
  rcases wcGrow_cases s with ⟨h1, h2, hg⟩ | ⟨hn, hg⟩
  · rw [hg]
    refine ⟨?_, rfl⟩
    rw [(setWidth_spec (by omega) s).1, grownBits, if_pos ⟨h1, h2⟩]
  · rw [hg]
    exact ⟨by rw [grownBits, if_neg hn], rfl⟩

end Sys2Proof.Machine
end

