-- ==== Sys2Proof/Laws/Packer.lean ====
section
/-!
SUPPORT. Everything the framer and the packer leave alone, what they add to the output, and what packing a code does to
the accumulator and the bit string.
-/

namespace Sys2Proof.Machine

/-! ### What the framer and the packer leave alone -/

/-- Everything but accumulator, buffer, sink and draws. -/
structure OutsideKept (s t : State) : Prop where
  control : sameControl s t
  session : sameSession s t
  width : sameWidth s t
  dict : t.dict = s.dict
  host : sameHost s t
  replies : sameReplies s t

theorem OutsideKept.rfl' (s : State) : OutsideKept s s :=
  ⟨⟨rfl, rfl⟩, ⟨rfl, rfl, rfl, rfl, rfl⟩, ⟨rfl, rfl, rfl⟩, rfl, ⟨rfl, rfl, rfl⟩, rfl, rfl⟩

theorem OutsideKept.trans {s t u : State} (h : OutsideKept s t) (g : OutsideKept t u) : OutsideKept s u := by
  obtain ⟨⟨a1, a2⟩, ⟨b1, b2, b3, b4, b5⟩, ⟨c1, c2, c3⟩, d, ⟨e1, e2, e3⟩, ⟨f1, f2⟩⟩ := h
  obtain ⟨⟨a1', a2'⟩, ⟨b1', b2', b3', b4', b5'⟩, ⟨c1', c2', c3'⟩, d', ⟨e1', e2', e3'⟩, ⟨f1', f2'⟩⟩ := g
  exact ⟨⟨a1'.trans a1, a2'.trans a2⟩, ⟨b1'.trans b1, b2'.trans b2, b3'.trans b3, b4'.trans b4, b5'.trans b5⟩,
    ⟨c1'.trans c1, c2'.trans c2, c3'.trans c3⟩, d'.trans d, ⟨e1'.trans e1, e2'.trans e2, e3'.trans e3⟩,
    f1'.trans f1, f2'.trans f2⟩

/-- What an operation on the output adds: transactions at the end of the trace, bytes at the end of the stream. -/
structure OutputGrown (s t : State) : Prop where
  trace : ∃ w, t.trace = s.trace ++ w
  stream : ∃ bytes, t.stream = s.stream ++ bytes

theorem OutputGrown.rfl' (s : State) : OutputGrown s s := ⟨⟨[], by simp⟩, ⟨[], by simp⟩⟩

theorem OutputGrown.trans {s t u : State} (h : OutputGrown s t) (g : OutputGrown t u) : OutputGrown s u := by
  obtain ⟨⟨w, hw⟩, ⟨b, hb⟩⟩ := h
  obtain ⟨⟨w', hw'⟩, ⟨b', hb'⟩⟩ := g
  exact ⟨⟨w ++ w', by simp [hw, hw']⟩, ⟨b ++ b', by simp [hb, hb']⟩⟩

theorem sinkAnswered_kept (bytes : List Byte) (s : State) :
    OutsideKept s (sinkAnswered bytes s) ∧ samePacker s (sinkAnswered bytes s) ∧
      OutputGrown s (sinkAnswered bytes s) :=
  ⟨⟨⟨rfl, rfl⟩, ⟨rfl, rfl, rfl, rfl, rfl⟩, ⟨rfl, rfl, rfl⟩, rfl, ⟨rfl, rfl, rfl⟩, rfl, rfl⟩, ⟨rfl, rfl⟩,
    ⟨_, rfl⟩, ⟨_, rfl⟩⟩

theorem putByte_kept (b : Byte) (s : State) :
    OutsideKept s (putByte b s) ∧ samePacker s (putByte b s) ∧ OutputGrown s (putByte b s) := by
  unfold putByte bufWrite
  split <;> exact ⟨⟨⟨rfl, rfl⟩, ⟨rfl, rfl, rfl, rfl, rfl⟩, ⟨rfl, rfl, rfl⟩, rfl, ⟨rfl, rfl, rfl⟩, rfl, rfl⟩,
    ⟨rfl, rfl⟩, ⟨[], by simp⟩, ⟨[], by simp⟩⟩

theorem bufEmpty_kept (s : State) :
    OutsideKept s (bufEmpty s) ∧ samePacker s (bufEmpty s) ∧ OutputGrown s (bufEmpty s) :=
  ⟨⟨⟨rfl, rfl⟩, ⟨rfl, rfl, rfl, rfl, rfl⟩, ⟨rfl, rfl, rfl⟩, rfl, ⟨rfl, rfl, rfl⟩, rfl, rfl⟩, ⟨rfl, rfl⟩,
    ⟨[], by simp⟩, ⟨[], by simp⟩⟩

/-- SB.PUT leaves all but buffer and sink alone, whether it completes or not, and raises SinkWriteFailure alone (R181). -/
theorem sbPut_kept (b : Byte) (s : State) :
    OutsideKept s (sbPut b s).last ∧ samePacker s (sbPut b s).last ∧ OutputGrown s (sbPut b s).last := by
  have h1 := sinkAnswered_kept (heldBlock s) s
  rcases sbPut_cases b s with ⟨_, h⟩ | ⟨_, _, h⟩ | ⟨_, _, h⟩
  · rw [h]
    exact putByte_kept b s
  · rw [h]
    have h2 := bufEmpty_kept (sinkAnswered (heldBlock s) s)
    have h3 := putByte_kept b (bufEmpty (sinkAnswered (heldBlock s) s))
    refine ⟨(h1.1.trans h2.1).trans h3.1, ?_, (h1.2.2.trans h2.2.2).trans h3.2.2⟩
    exact ⟨(h3.2.1.1.trans h2.2.1.1).trans h1.2.1.1, (h3.2.1.2.trans h2.2.1.2).trans h1.2.1.2⟩
  · rw [h]
    exact h1

theorem shiftOut_kept (s : State) : OutsideKept s (shiftOut s) ∧ OutputGrown s (shiftOut s) :=
  ⟨⟨⟨rfl, rfl⟩, ⟨rfl, rfl, rfl, rfl, rfl⟩, ⟨rfl, rfl, rfl⟩, rfl, ⟨rfl, rfl, rfl⟩, rfl, rfl⟩,
    ⟨[], by simp⟩, ⟨[], by simp⟩⟩

theorem shiftIn_kept (c : Code) (s : State) : OutsideKept s (shiftIn c s) ∧ OutputGrown s (shiftIn c s) :=
  ⟨⟨⟨rfl, rfl⟩, ⟨rfl, rfl, rfl, rfl, rfl⟩, ⟨rfl, rfl, rfl⟩, rfl, ⟨rfl, rfl, rfl⟩, rfl, rfl⟩,
    ⟨[], by simp⟩, ⟨[], by simp⟩⟩

/-- One extraction leaves all but accumulator, buffer and sink alone (R160). -/
theorem extractByte_kept (s : State) :
    OutsideKept s (extractByte s).last ∧ OutputGrown s (extractByte s).last := by
  have hp := sbPut_kept (lowByte s) s
  unfold extractByte
  cases hs : sbPut (lowByte s) s with
  | raised k t =>
    rw [hs] at hp
    exact ⟨hp.1, hp.2.2⟩
  | done t =>
    rw [hs] at hp
    exact ⟨hp.1.trans (shiftOut_kept t).1, hp.2.2.trans (shiftOut_kept t).2⟩

/-- The extraction loop leaves all but accumulator, buffer and sink alone (R160, R163). -/
theorem extractWhile_kept (least turns : Nat) (s : State) :
    OutsideKept s (extractWhile least turns s).last ∧ OutputGrown s (extractWhile least turns s).last := by
  induction turns generalizing s with
  | zero => exact ⟨.rfl' s, .rfl' s⟩
  | succ n ih =>
    simp only [extractWhile]
    split
    · have he := extractByte_kept s
      cases hs : extractByte s with
      | raised k t =>
        rw [hs] at he
        exact he
      | done t =>
        rw [hs] at he
        exact ⟨he.1.trans (ih t).1, he.2.trans (ih t).2⟩
    · exact ⟨.rfl' s, .rfl' s⟩

/-- `pack(c)` leaves all but accumulator, buffer and sink alone (R160). -/
theorem pack_kept (c : Code) (s : State) : OutsideKept s (pack c s).last ∧ OutputGrown s (pack c s).last := by
  obtain ⟨h1, h2⟩ := extractWhile_kept 8 3 (shiftIn c s)
  exact ⟨(shiftIn_kept c s).1.trans h1, (shiftIn_kept c s).2.trans h2⟩

/-- The only error of SB.PUT is SinkWriteFailure (R181). -/
theorem sbPut_raises {b : Byte} {s t : State} {k : ErrorKind} (h : sbPut b s = .raised k t) : k = .sinkWriteFailure := by
  rcases sbPut_cases b s with ⟨_, h'⟩ | ⟨_, _, h'⟩ | ⟨_, _, h'⟩ <;> rw [h'] at h <;> cases h
  rfl

/-- The only error of the extraction loop is SinkWriteFailure (R160, R163). -/
theorem extractWhile_raises {least turns : Nat} {s t : State} {k : ErrorKind}
    (h : extractWhile least turns s = .raised k t) : k = .sinkWriteFailure := by
  induction turns generalizing s with
  | zero => cases h
  | succ n ih =>
    simp only [extractWhile] at h
    split at h
    · rcases andThen_eq_raised.mp h with h | ⟨u, _, h⟩
      · rcases andThen_eq_raised.mp h with h | ⟨u, _, h⟩
        · exact sbPut_raises h
        · cases h
      · exact ih h
    · cases h

/-! ### The bit string -/

/-- SB.PUT adds its byte to the payload, whether or not a full block goes to the sink first (R181, R185). -/
theorem sbPut_payload {b : Byte} {s t : State} (h : sbPut b s = .done t) :
    Wire.payloadSoFar t = Wire.payloadSoFar s ++ [b] := by
  rcases sbPut_cases b s with ⟨hc, h'⟩ | ⟨_, _, h'⟩ | ⟨_, _, h'⟩
  · obtain rfl : putByte b s = t := by rw [h'] at h; cases h; rfl
    have ht : (putByte b s).trace = s.trace := by rw [(putByte_spec hc b).2]
    simp [Wire.payloadSoFar, ht, putByte_held hc]
  · obtain rfl : putByte b (bufEmpty (sinkAnswered (heldBlock s) s)) = t := by rw [h'] at h; cases h; rfl
    have hc : (bufEmpty (sinkAnswered (heldBlock s) s)).sbCount.toNat < 255 := by simp
    have ht : (putByte b (bufEmpty (sinkAnswered (heldBlock s) s))).trace =
        s.trace ++ [(heldBlock s, nextAnswer s)] := by
      rw [(putByte_spec hc b).2]
      rfl
    rw [Wire.payloadSoFar, ht, putByte_held hc, Wire.tracePayload_append, heldBlock_eq]
    simp [Wire.payloadSoFar, Wire.tracePayload]
  · rw [h'] at h
    cases h

theorem lowByte_toNat (s : State) : (lowByte s).toNat = s.shiftValue.toNat % 2 ^ 8 := by
  simp [lowByte]

/-- One extraction moves eight bits from the accumulator to the payload; the bit string stays (R160). -/
theorem extractByte_spec {s t : State} (h : extractByte s = .done t) (h8 : 8 ≤ s.shiftBits.toNat) :
    t.shiftBits.toNat = s.shiftBits.toNat - 8 ∧ t.shiftValue.toNat = s.shiftValue.toNat >>> 8 ∧
      Wire.bitsSoFar t = Wire.bitsSoFar s := by
  obtain ⟨u, hu, ht⟩ := andThen_eq_done.mp h
  cases ht
  have hk := (sbPut_kept (lowByte s) s).2.1
  rw [hu] at hk
  obtain ⟨hv, hb⟩ : u.shiftValue = s.shiftValue ∧ u.shiftBits = s.shiftBits := hk
  have hlt := s.shiftBits.isLt
  have hbits : (shiftOut u).shiftBits.toNat = s.shiftBits.toNat - 8 := by
    rw [shiftOut_shiftBits, hb, BitVec.toNat_ofNat]
    omega
  have hval : (shiftOut u).shiftValue.toNat = s.shiftValue.toNat >>> 8 := by
    rw [shiftOut_shiftValue, hv]
    simp
  refine ⟨hbits, hval, ?_⟩
  have hpay : Wire.payloadSoFar (shiftOut u) = Wire.payloadSoFar s ++ [lowByte s] := by
    rw [← sbPut_payload hu]
    rfl
  unfold Wire.bitsSoFar
  rw [hpay, Wire.bytesBits_append, Wire.bytesBits_singleton, lowByte_toNat, hbits, hval, List.append_assoc,
    ← Wire.valueBits_split]
  congr 2
  omega

/-- The extraction loop keeps the bit string and shifts the accumulator down until fewer than eight bits are left
(R160). -/
theorem extractWhile_bits {turns : Nat} {s t : State} (h : extractWhile 8 turns s = .done t)
    (hturns : s.shiftBits.toNat < 8 * (turns + 1)) :
    t.shiftBits.toNat = s.shiftBits.toNat % 8 ∧
      t.shiftValue.toNat = s.shiftValue.toNat >>> (s.shiftBits.toNat / 8 * 8) ∧
      Wire.bitsSoFar t = Wire.bitsSoFar s := by
  induction turns generalizing s with
  | zero =>
    cases h
    have : t.shiftBits.toNat / 8 = 0 := by omega
    refine ⟨by omega, by simp [this], rfl⟩
  | succ n ih =>
    simp only [extractWhile] at h
    split at h
    · rename_i h8
      obtain ⟨u, hu, ht⟩ := andThen_eq_done.mp h
      obtain ⟨h1, h2, h3⟩ := extractByte_spec hu h8
      obtain ⟨g1, g2, g3⟩ := ih ht (by omega)
      refine ⟨by omega, ?_, g3.trans h3⟩
      rw [g2, h2, h1, ← Nat.shiftRight_add]
      congr 1
      omega
    · rename_i h8
      cases h
      have : t.shiftBits.toNat / 8 = 0 := by omega
      refine ⟨by omega, by simp [this], rfl⟩

/-- `shiftIn` with an accumulator between operations: exact, and the code's bits follow the accumulator's (R160, R164). -/
theorem shiftIn_spec {c : Code} {s : State} (hp : PackerRegs s) (hr : s.runningBits.toNat ≤ 12)
    (hc : c.toNat < 2 ^ s.runningBits.toNat) :
    (shiftIn c s).shiftBits.toNat = s.shiftBits.toNat + s.runningBits.toNat ∧
      (shiftIn c s).shiftValue.toNat = s.shiftValue.toNat ||| (c.toNat <<< s.shiftBits.toNat) ∧
      (shiftIn c s).shiftValue.toNat < 2 ^ (s.shiftBits.toNat + s.runningBits.toNat) ∧
      Wire.bitsSoFar (shiftIn c s) = Wire.bitsSoFar s ++ Wire.valueBits s.runningBits.toNat c.toNat := by
  have h7 := hp.bitsHigh
  have hv := hp.valueFits
  have hor : s.shiftValue.toNat ||| (c.toNat <<< s.shiftBits.toNat) < 2 ^ (s.shiftBits.toNat + s.runningBits.toNat) := by
    apply Nat.or_lt_two_pow
    · exact Nat.lt_of_lt_of_le hv (Nat.pow_le_pow_right (by decide) (Nat.le_add_right _ _))
    · rw [Nat.shiftLeft_eq, Nat.add_comm, Nat.pow_add]
      exact Nat.mul_lt_mul_of_pos_right hc (Nat.two_pow_pos _)
  have h19 : s.shiftValue.toNat ||| (c.toNat <<< s.shiftBits.toNat) < 2 ^ 19 :=
    Nat.lt_of_lt_of_le hor (Nat.pow_le_pow_right (by decide) (by omega))
  have hb : (shiftIn c s).shiftBits.toNat = s.shiftBits.toNat + s.runningBits.toNat := by
    rw [shiftIn_shiftBits, fit_toNat _ (by omega)]
  have hval : (shiftIn c s).shiftValue.toNat = s.shiftValue.toNat ||| (c.toNat <<< s.shiftBits.toNat) := by
    rw [shiftIn_shiftValue, fit_toNat _ h19]
  refine ⟨hb, hval, hval ▸ hor, ?_⟩
  have hpay : Wire.payloadSoFar (shiftIn c s) = Wire.payloadSoFar s := by
    simp [Wire.payloadSoFar, heldBytes_congr (s := s) (t := shiftIn c s) (by simp) (by simp) (by simp)]
  unfold Wire.bitsSoFar
  rw [hpay, hb, hval, Wire.valueBits_append _ _ _ _ hv, List.append_assoc]

/-- Everything `pack(c)` does when it completes on an accumulator between operations (R160, R164). -/
theorem pack_spec {c : Code} {s t : State} (hp : PackerRegs s) (hr : s.runningBits.toNat ≤ 12)
    (hc : c.toNat < 2 ^ s.runningBits.toNat) (h : pack c s = .done t) :
    PackerRegs t ∧ Wire.bitsSoFar t = Wire.bitsSoFar s ++ Wire.valueBits s.runningBits.toNat c.toNat ∧
      OutsideKept s t ∧ OutputGrown s t := by
  have h7 := hp.bitsHigh
  obtain ⟨hb, _, hlt, hbits⟩ := shiftIn_spec hp hr hc
  obtain ⟨g1, g2, g3⟩ := extractWhile_bits (turns := 3) h (by omega)
  have hk := pack_kept c s
  rw [h] at hk
  refine ⟨⟨by omega, ?_⟩, g3.trans hbits, hk.1, hk.2⟩
  rw [g2, g1, hb, Nat.shiftRight_eq_div_pow]
  apply Nat.div_lt_of_lt_mul
  rw [← Nat.pow_add]
  refine Nat.lt_of_lt_of_le hlt (Nat.pow_le_pow_right (by decide) (by omega))

/-- Everything PK.EMIT_DATA does when it completes on an accumulator between operations: the bits at the old width, then
the growth (R161). -/
theorem emitData_spec {c : Code} {s t : State} (hp : PackerRegs s) (hr : s.runningBits.toNat ≤ 12)
    (hc : c.toNat < 2 ^ s.runningBits.toNat) (hz : s.params.lzBits ≤ 12) (h : emitData c s = .done t) :
    PackerRegs t ∧ Wire.bitsSoFar t = Wire.bitsSoFar s ++ Wire.valueBits s.runningBits.toNat c.toNat ∧
      t.runningCode = s.runningCode ∧ t.runningBits.toNat = grownBits s ∧ sameControl s t ∧ sameSession s t ∧
      t.dict = s.dict ∧ sameHost s t ∧ sameReplies s t ∧ OutputGrown s t := by
  obtain ⟨u, hu, ht⟩ := andThen_eq_done.mp h
  cases ht
  obtain ⟨hpu, hb, hk, ho⟩ := pack_spec hp hr hc hu
  obtain ⟨w1, w2, w3⟩ := hk.width
  have hpar : u.params = s.params := hk.host.2.2
  obtain ⟨g1, g2⟩ := wcGrow_spec (s := u) (by rw [hpar]; exact hz)
  have hg : grownBits u = grownBits s := by simp [grownBits, w1, w2, w3, hpar]
  rcases wcGrow_cases u with ⟨_, _, h'⟩ | ⟨_, h'⟩
  · rw [h'] at g1 ⊢
    exact ⟨⟨hpu.bitsHigh, hpu.valueFits⟩, hb, w1, g1.trans hg, hk.control, hk.session, hk.dict, hk.host, hk.replies,
      ⟨ho.trace, ho.stream⟩⟩
  · rw [h'] at g1 ⊢
    exact ⟨hpu, hb, w1, g1.trans hg, hk.control, hk.session, hk.dict, hk.host, hk.replies, ho⟩

end Sys2Proof.Machine
end

