-- ==== Sys2Proof/Laws/PerInstr.lean ====
section
/-!
SUPPORT. What holds of every operation as syntax, one lemma for each constructor.
-/

namespace Sys2Proof.Laws.DecodedWellFormed

/-- An operation the decoder reads from any word is well-formed (R87, R89). -/
def Statement (i : Instr) : Prop := ∀ w : Word, decode w = .ok i → wellFormed i = true

theorem begin (req : BitVec 4) (quota : BitVec 32) : Statement (.begin req quota) := fun _ _ => rfl
theorem push (pixel : Byte) : Statement (.push pixel) := fun _ _ => rfl
theorem reset : Statement .reset := fun _ _ => rfl
theorem dictLookup (key : Key) : Statement (.dictLookup key) := fun _ _ => rfl
theorem dictInsert (key : Key) (code : Code) : Statement (.dictInsert key code) := fun _ _ => rfl
theorem dictClear : Statement .dictClear := fun _ _ => rfl
theorem wcInit : Statement .wcInit := fun _ _ => rfl
theorem wcAdvance : Statement .wcAdvance := fun _ _ => rfl
theorem wcGrow : Statement .wcGrow := fun _ _ => rfl
theorem pkEmitData (code : Code) : Statement (.pkEmitData code) := fun _ _ => rfl
theorem pkEmitSpecial (code : Code) : Statement (.pkEmitSpecial code) := fun _ _ => rfl
theorem pkFlush : Statement .pkFlush := fun _ _ => rfl
theorem sbPut (byte : Byte) : Statement (.sbPut byte) := fun _ _ => rfl
theorem sbTerminate : Statement .sbTerminate := fun _ _ => rfl

/-- The one check of `wellFormed`: the decoder reads no payload longer than its length byte counts. -/
theorem sinkWrite (payload : List Byte) : Statement (.sinkWrite payload) := by
  intro w h
  have hlen : ∀ bytes, decodeSw bytes = .ok (.sinkWrite payload) → payload.length ≤ 255 := by
    intro bytes hb
    cases bytes with
    | nil => cases hb
    | cons len rest =>
      simp only [decodeSw] at hb
      split at hb
      · rename_i hl
        have := len.isLt
        cases hb
        omega
      · cases hb
  have hno : ∀ w' : Word, decode w' = .ok (.sinkWrite payload) → ∃ bytes, w' = .port (.sw bytes) := by
    intro w' hw
    cases w' with
    | cw x =>
      simp only [decode, decodeCw] at hw
      split at hw <;> [cases hw; split at hw] <;> [cases hw; split at hw] <;> cases hw
    | port p =>
      cases p with
      | sw bytes => exact ⟨bytes, rfl⟩
      | dw x =>
        simp only [decode, decodePort, decodeDw] at hw
        split at hw <;> [cases hw; split at hw] <;> [cases hw; split at hw] <;> cases hw
      | ww x =>
        simp only [decode, decodePort, decodeWw] at hw
        split at hw <;> [cases hw; split at hw] <;> [cases hw; split at hw] <;> cases hw
      | pw x =>
        simp only [decode, decodePort, decodePw] at hw
        split at hw <;> [cases hw; split at hw] <;> [cases hw; split at hw] <;> cases hw
      | fw x =>
        simp only [decode, decodePort, decodeFw] at hw
        split at hw <;> [cases hw; split at hw] <;> [cases hw; split at hw] <;> cases hw
  obtain ⟨bytes, rfl⟩ := hno w h
  exact decide_eq_true (hlen bytes h)

end Sys2Proof.Laws.DecodedWellFormed
end

