-- ==== Sys2Proof/Laws/Step.lean ====
section
/-!
SUPPORT. Everything a step can be (spec/00_scope.md R6): one inversion lemma, from which each invariant of the machine is
a case split.
-/

namespace Sys2Proof.Machine

/-- What `fetch` finds is what the next request or the next thing of the command stream says; only that is taken. -/
theorem fetch_cases (s : State) :
    (∃ w, s.request = some w ∧ fetch s = (readPort w, { s with request := none })) ∨
      (s.request = none ∧ s.hostInput = [] ∧ fetch s = (.nothing, s)) ∨
      (∃ rest, s.request = none ∧ s.hostInput = .hardReset :: rest ∧
        fetch s = (.hardReset, { s with hostInput := rest })) ∨
      (∃ w rest, s.request = none ∧ s.hostInput = .command w :: rest ∧
        fetch s = (readCommand w, { s with hostInput := rest })) := by
  cases hr : s.request with
  | some w => exact .inl ⟨w, rfl, by simp [fetch, hr]⟩
  | none =>
    cases hi : s.hostInput with
    | nil => exact .inr (.inl ⟨rfl, rfl, by simp [fetch, hr, hi]⟩)
    | cons x rest =>
      cases x with
      | hardReset => exact .inr (.inr (.inl ⟨rest, rfl, rfl, by simp [fetch, hr, hi]⟩))
      | command w => exact .inr (.inr (.inr ⟨w, rest, rfl, rfl, by simp [fetch, hr, hi]⟩))

/-- A step that answers a next state kept the state it fetched from, reset the core, ran an operation, or refused an
illegal command. -/
theorem step_cases {s t : State} (h : step s = .next t) :
    ((fetch s).1 = .nothing ∧ t = (fetch s).2) ∨
      ((fetch s).1 = .hardReset ∧ t = resetCore (fetch s).2) ∨
      (∃ i, (fetch s).1 = .run i ∧ exec i (fetch s).2 = .next t) ∨
      ((fetch s).1 = .illegalCommand ∧ t = illegalCommand (fetch s).2) := by
  unfold step at h
  generalize fetch s = f at h
  obtain ⟨what, u⟩ := f
  cases what with
  | nothing => exact .inl ⟨rfl, by injection h with h; exact h.symm⟩
  | hardReset => exact .inr (.inl ⟨rfl, by injection h with h; exact h.symm⟩)
  | run i => exact .inr (.inr (.inl ⟨i, rfl, h⟩))
  | illegalCommand => exact .inr (.inr (.inr ⟨rfl, by injection h with h; exact h.symm⟩))
  | neverGenerated r => cases h

/-- A host's command word is one of the three commands or illegal (R89). -/
theorem decodeCw_cases (w : BitVec 40) :
    (∃ req quota, decodeCw w = .ok (.begin req quota)) ∨ (∃ pixel, decodeCw w = .ok (.push pixel)) ∨
      decodeCw w = .ok .reset ∨ ∃ opc, decodeCw w = .error (.reservedOpcode opc) := by
  by_cases h1 : w.extractLsb' 36 4 = 0x1#4
  · exact .inl ⟨_, _, by rw [decodeCw, if_pos h1]⟩
  · by_cases h2 : w.extractLsb' 36 4 = 0x2#4
    · exact .inr (.inl ⟨_, by rw [decodeCw, if_neg h1, if_pos h2]⟩)
    · by_cases h3 : w.extractLsb' 36 4 = 0x3#4
      · exact .inr (.inr (.inl (by rw [decodeCw, if_neg h1, if_neg h2, if_pos h3])))
      · exact .inr (.inr (.inr ⟨_, by rw [decodeCw, if_neg h1, if_neg h2, if_neg h3]⟩))

end Sys2Proof.Machine
end

