-- ==== Sys2Proof/Tests/Slice0.lean ====
section
/-!
SUPPORT. Tests of one step each, their expected values from spec/95_test_vectors.md or computed by hand from the rules,
and a witness for the hypotheses of every statement that has some.
-/

namespace Sys2Proof.Tests

open Sys2Proof.Machine

/-! ### Well-formedness -/

set_option maxRecDepth 8000 in
/-- R87: 255 payload bytes are the most one length byte counts. -/
theorem test_wellFormed_full_block : wellFormed (.sinkWrite (List.replicate 255 0)) = true := by decide

set_option maxRecDepth 8000 in
/-- R87: a payload of 256 bytes is refused. -/
theorem test_wellFormed_refuses_256 : wellFormed (.sinkWrite (List.replicate 256 0)) = false := by decide

/-! ### Words written out from the encodings -/

/-- R80: `0001 bbbb q...`, BEGIN 2, 4 is 0x1200000004 (V-H2). -/
theorem test_decode_begin : (decodeCw 0b0001_0010_00000000_00000000_00000000_00000100).toOption = some (.begin 2 4) := by
  decide

/-- R80: `0010 xxxx x...x pppppppp`, the ignored fields full of junk (V-H20). -/
theorem test_decode_push : (decodeCw 0x2FABCDEF03).toOption = some (.push 3) := by decide

/-- R80: `0011 x...x` (V-H21). -/
theorem test_decode_reset : (decodeCw 0x3FFFFFFFFF).toOption = some .reset := by decide

/-- R83: `01`, the key, twelve ignored bits; key (6 << 8) | 3. -/
theorem test_decode_dictLookup :
    (decodeDw 0b01_00000000011000000011_111111111111).toOption = some (.dictLookup 0x00603) := by decide

/-- R83: `10`, the key, the code (V-D3 with another key and code). -/
theorem test_decode_dictInsert :
    (decodeDw 0b10_00000000011000000011_000000000111).toOption = some (.dictInsert 0x00603 7) := by decide

/-- R83: `11`, the rest ignored (V-D1). -/
theorem test_decode_dictClear : (decodeDw 0x300000000).toOption = some .dictClear := by decide

/-- R84. -/
theorem test_decode_width :
    ((decodeWw 0b01).toOption, (decodeWw 0b10).toOption, (decodeWw 0b11).toOption) =
      (some .wcInit, some .wcAdvance, some .wcGrow) := by decide

/-- R85: `01 c`, `10 c`, `11 x`. -/
theorem test_decode_packer :
    ((decodePw 0b01_000000000110).toOption, (decodePw 0b10_000100000000).toOption,
        (decodePw 0b11_101010101010).toOption) =
      (some (.pkEmitData 6), some (.pkEmitSpecial 256), some .pkFlush) := by decide

/-- R86: `01 b`, `10 x`; `11` is never generated. -/
theorem test_decode_framer :
    ((decodeFw 0b01_10000100).toOption, (decodeFw 0b10_11111111).toOption, (decodeFw 0b11_00000000).toOption) =
      (some (.sbPut 0x84), some .sbTerminate, none) := by decide

/-- R87: a SUBBLOCK, the TERMINATOR, and a list whose first byte is not its length. -/
theorem test_decode_sink :
    ((decodeSw [0x02, 0x84, 0x51]).toOption, (decodeSw [0x00]).toOption, (decodeSw [0x02, 0x84]).toOption) =
      (some (.sinkWrite [0x84, 0x51]), some (.sinkWrite []), none) := by decide

/-- R88: opcode 0 and opcode 4 are reserved (V-H18, V-H19). -/
theorem test_decode_reserved :
    ((decodeCw 0x0000000000).toOption, (decodeCw 0x4000000000).toOption) = (none, none) := by decide

/-! ### States of the spec's programs -/

/-- After V-H2 (`BEGIN 2, 4`), "in full"; the sink answers `ok`. -/
def opened : State :=
  { State.reset with
    fsm := .awaitFirst, bpp := 2, clearCode := 4, eofCode := 5, quota := 4, runningCode := 6, runningBits := 3,
    maxCode1 := 8, shiftValue := 4, shiftBits := 3, sinkScript := [.ok, .ok, .ok] }

/-- The same with one pixel left. -/
def openedLast : State := { opened with quota := 1 }

/-- P1 after command 4. -/
def afterMiss : State :=
  { opened with
    fsm := .matching, quota := 2, pendingPrefix := 0, runningCode := 7, shiftBits := 6, dict := [(0x00000, 6)] }

/-- P1 after command 5. -/
def afterHit : State := { afterMiss with quota := 1, pendingPrefix := 6 }

/-- P1 after command 6, without its output. -/
def completed : State :=
  { opened with
    fsm := .flushed, quota := 0, runningCode := 8, runningBits := 4, maxCode1 := 16, shiftValue := 0, shiftBits := 0 }

/-- A saturated session: `bpp` 8 with LZ_MAX_CODE 259, so that one string saturates the dictionary. -/
def saturated : State :=
  { opened with
    fsm := .matching, bpp := 8, clearCode := 256, eofCode := 257, quota := 5, pendingPrefix := 0, runningCode := 259,
    runningBits := 9, maxCode1 := 512, shiftValue := 0, shiftBits := 0, dict := [(0x00000, 258)],
    params := { lzMaxCode := 259, lzBits := 9, quotaBits := 32 } }

/-- POISONED by DataOverrun (V-H16). -/
def overrun : State := { completed with fsm := .poisoned, cause := some .dataOverrun }

/-- The last pixel of a session whose sink fails. -/
def failing : State := { afterHit with sinkScript := [.fail] }

/-- A full buffer. -/
def fullBuffer : State := { opened with sbCount := 255 }

/-- The next state's view, where there is a next state. -/
def after {α : Type} (view : State → α) : Host.Outcome State Fault Refusal → Option α
  | .next t => some (view t)
  | .fault _ => none
  | .refused _ => none

/-- Whether a step answers a next state. -/
def runs (o : Host.Outcome State Fault Refusal) : Bool := (after (fun _ => ()) o).isSome

/-! ### Commands -/

/-- V-H3: `BEGIN 8, 6000`: `runningCode`, `runningBits`, `maxCode1`, `shiftValue`, `shiftBits`, `sbCount`, slot 1, RW. -/
theorem test_begin_bpp8 :
    after (fun t => (t.runningCode, t.runningBits, t.maxCode1, t.shiftValue, t.shiftBits, t.sbCount, bufRead t 1,
      t.response)) (exec (.begin 8 6000) State.reset) =
      some (258, 9, 512, 1, 1, 1, 0x00, some 0x80) := by decide

/-- V-H6: `BEGIN 9, 1` is refused. -/
theorem test_begin_illegal :
    after (fun t => (t.fsm, t.cause, t.response)) (exec (.begin 9 1) State.reset) =
      some (.poisoned, some .stateMisuse, some 0x03) := by decide

/-- V-H11: `PUSH 0xFD` masks to 1. -/
theorem test_push_masks :
    after (fun t => (t.fsm, t.pendingPrefix, t.quota, t.response)) (exec (.push 0xFD) opened) =
      some (.matching, 1, 3, some 0x20) := by decide

/-- P1 command 6: miss, insert and termination in one command: the sink receives `[02 84 51] [00]`. -/
theorem test_push_last :
    after (fun t => (t.fsm, t.trace, t.response)) (exec (.push 0) afterHit) =
      some (.flushed, [([0x02, 0x84, 0x51], .ok), ([0x00], .ok)], some 0x28) := by decide

/-- V-H21: RESET abandons a session and writes nothing. -/
theorem test_reset_midway :
    after (fun t => (t.fsm, t.trace, t.response)) (exec .reset afterMiss) =
      some (.idle, [], some 0x00) := by decide

/-- P3 command 7: RESET leaves POISONED. -/
theorem test_reset_poisoned :
    after (fun t => (t.fsm, t.cause, t.response)) (exec .reset overrun) = some (.idle, none, some 0x00) := by decide

/-! ### Dictionary -/

/-- V-D4: a hit answers `DR` = 0x1006. -/
theorem test_dictLookup_hit : after (·.dictReply) (exec (.dictLookup 0x00000) afterMiss) = some (some 0x1006) := by
  decide

/-- V-D7: the same prefix with another pixel misses: `DR[12]` = 0. -/
theorem test_dictLookup_miss :
    ∃ free, after (·.dictReply) (exec (.dictLookup 0x00001) afterMiss) = some (some (replyWord false free)) :=
  ⟨_, rfl⟩

/-- V-D6. -/
theorem test_dictInsert : after (·.dict) (exec (.dictInsert 0x00600 7) afterMiss) = some [(0x00000, 6), (0x00600, 7)] := by
  decide

/-- U2: a key already present. -/
theorem test_dictInsert_duplicate : runs (exec (.dictInsert 0x00000 7) afterMiss) = false := by decide

/-- V-D9. -/
theorem test_dictClear : after (·.dict) (exec .dictClear afterMiss) = some [] := by decide

/-! ### Width controller -/

/-- V-W10: after a mid-stream clear at `bpp` 8. -/
theorem test_wcInit :
    after (fun t => (t.runningCode, t.runningBits, t.maxCode1))
      (exec .wcInit { saturated with runningCode := 4096, runningBits := 12, maxCode1 := 4096 }) =
      some (258, 9, 512) := by decide

/-- V-W8: 4095 becomes 4096, the width stays. -/
theorem test_wcAdvance :
    after (fun t => (t.runningCode, t.runningBits, t.maxCode1))
      (exec .wcAdvance { opened with runningCode := 4095, runningBits := 12, maxCode1 := 4096 }) =
      some (4096, 12, 4096) := by decide

/-- V-W4: the threshold. -/
theorem test_wcGrow :
    after (fun t => (t.runningCode, t.runningBits, t.maxCode1)) (exec .wcGrow { opened with runningCode := 8 }) =
      some (8, 4, 16) := by decide

/-- V-W6: the ceiling. -/
theorem test_wcGrow_ceiling :
    after (fun t => (t.runningCode, t.runningBits, t.maxCode1))
      (exec .wcGrow { opened with runningCode := 4096, runningBits := 12, maxCode1 := 4096 }) =
      some (4096, 12, 4096) := by decide

/-! ### Packer -/

/-- V-P8, the widest case, with the growth of V-W4 after it: two bytes FF, then 7 in 3 bits. -/
theorem test_pkEmitData :
    after (fun t => (t.shiftValue, t.shiftBits, heldBytes t))
      (exec (.pkEmitData 0xFFF) { opened with shiftValue := 0x7F, shiftBits := 7, runningBits := 12, maxCode1 := 4096 }) =
      some (7, 3, [0xFF, 0xFF]) := by decide

/-- R167 step 4: packed at the old width 3, then the width is 4. -/
theorem test_pkEmitData_old_width :
    after (fun t => (t.shiftValue, t.shiftBits, t.runningBits))
      (exec (.pkEmitData 0) { opened with shiftValue := 1, shiftBits := 1, runningCode := 8 }) =
      some (1, 4, 4) := by decide

/-- V-P3: 256 at width 9. -/
theorem test_pkEmitSpecial :
    after (fun t => (t.shiftValue, t.shiftBits, heldBytes t))
      (exec (.pkEmitSpecial 256) { opened with shiftValue := 0, shiftBits := 0, runningBits := 9 }) =
      some (1, 1, [0x00]) := by decide

/-- V-P13: three zero bits still make a byte. -/
theorem test_pkFlush_pads :
    after (fun t => (t.shiftBits, t.trace)) (exec .pkFlush { opened with shiftValue := 0, shiftBits := 3 }) =
      some (0, [([0x01, 0x00], .ok), ([0x00], .ok)]) := by decide

/-- V-P10: no bit left, no pad byte. -/
theorem test_pkFlush_empty :
    after (fun t => (t.shiftBits, t.trace)) (exec .pkFlush { opened with shiftValue := 0, shiftBits := 0 }) =
      some (0, [([0x00], .ok)]) := by decide

/-! ### Framer and sink -/

set_option maxRecDepth 8000 in
/-- V-F3: the 256th byte sends the full block first. -/
theorem test_sbPut_full :
    after (fun t => (t.sbCount, bufRead t 1, t.trace.map (fun e => (e.1.length, e.1.head?)))) (exec (.sbPut 0x12) fullBuffer) =
      some (1, 0x12, [(256, some 0xFF)]) := by decide

/-- V-F2: the 255th byte writes nothing. -/
theorem test_sbPut_255th :
    after (fun t => (t.sbCount, bufRead t 255, t.trace)) (exec (.sbPut 0x12) { opened with sbCount := 254 }) =
      some (255, 0x12, []) := by decide

/-- V-F4. -/
theorem test_sbTerminate :
    after (fun t => (t.sbCount, t.trace))
      (exec .sbTerminate { opened with sbCount := 2, sbData := [(1, 0x84), (2, 0x51)] }) =
      some (0, [([0x02, 0x84, 0x51], .ok), ([0x00], .ok)]) := by decide

/-- V-F8: the first answer is `fail`, the TERMINATOR is not attempted. -/
theorem test_sbTerminate_fails :
    after (fun t => (t.fsm, t.trace, t.response))
      (exec .sbTerminate { opened with sbCount := 2, sbData := [(1, 0x84), (2, 0x51)], sinkScript := [.fail] }) =
      some (.poisoned, [([0x02, 0x84, 0x51], .fail)], some 0x01) := by decide

/-- R183's example: the TERMINATOR acknowledged. -/
theorem test_sinkWrite : after (fun t => (t.stream, t.trace)) (exec (.sinkWrite []) opened) =
    some ([0x00], [([0x00], .ok)]) := by decide

/-- R206: a failed write poisons and keeps the trace. -/
theorem test_sinkWrite_fails :
    after (fun t => (t.fsm, t.trace, t.response)) (exec (.sinkWrite [0x84]) { opened with sinkScript := [.fail] }) =
      some (.poisoned, [([0x01, 0x84], .fail)], some 0x01) := by decide

/-! ### The step -/

/-- P1 command 2, from the state after reset: a step takes the command word and runs BEGIN. -/
theorem test_step_begin :
    after (fun t => (t.fsm, t.quota, t.shiftValue, t.hostInput, t.response))
      (step { State.reset with hostInput := [.command 0x1200000004, .command 0x2000000000] }) =
      some (.awaitFirst, 4, 4, [.command 0x2000000000], some 0x20) := by decide

/-- V-H18: opcode 0 poisons. -/
theorem test_step_reserved :
    after (fun t => (t.fsm, t.cause, t.response)) (step { State.reset with hostInput := [.command 0] }) =
      some (.poisoned, some .stateMisuse, some 0x03) := by decide

/-- Every row of the opcode table, by its width and match, decodes and runs as the first operation after reset. -/
theorem test_every_row_runs_after_reset :
    ([(40, 0x1000000000), (40, 0x2000000000), (40, 0x3000000000), (34, 0x100000000), (34, 0x200000000),
        (34, 0x300000000), (2, 1), (2, 2), (2, 3), (14, 0x1000), (14, 0x2000), (14, 0x3000), (10, 0x100), (10, 0x200),
        (8, 0), (40, 0x100000000), (40, 0x200000000), (40, 0x300000000), (8, 1), (8, 2), (8, 3), (16, 0x1000),
        (16, 0x2000), (16, 0x3000), (16, 0x100), (16, 0x200)].all
      (fun r => (decodeTableWord r.1 r.2).isSome && runs (step (State.reset.withFetchWord r.1 r.2)))) = true := by
  decide

/-! ### Text -/

/-- R90: `BEGIN 8, 0x1770 ; comment` is V-H3's command word. -/
theorem test_script_begin :
    ((Script.parseLine ("BEGIN 8, 0x1770 ; comment".toList)).bind (fun l => l.bind Script.assemble)).map
      Script.commandStream = some [.command 0x1800001770] := by decide

/-! ### Witnesses: concrete states and operands that meet the hypotheses of the statements -/

theorem inv_reset : Inv State.reset where
  noRequest := rfl
  params := by decide
  memory := by decide
  causeIff := by decide
  opened := fun h => absurd h (by decide)
  held := fun h => absurd h (by decide)
  completed := fun h => absurd h (by decide)

theorem inv_opened : Inv opened where
  noRequest := rfl
  params := by decide
  memory := by decide
  causeIff := by decide
  opened := fun _ =>
    { regs := ⟨by decide, by decide, by decide, by decide⟩
      quotaLeft := by decide
      width := ⟨by decide, by decide, by decide, by decide, by decide, by decide, by decide⟩
      packer := ⟨by decide, by decide⟩
      slots := fun i h1 h2 => absurd (Nat.le_trans h1 h2) (by decide)
      entries := ⟨by decide, by decide, by decide, by decide⟩ }
  held := fun h => absurd h (by decide)
  completed := fun h => absurd h (by decide)

theorem inv_openedLast : Inv openedLast where
  noRequest := rfl
  params := by decide
  memory := by decide
  causeIff := by decide
  opened := fun _ =>
    { regs := ⟨by decide, by decide, by decide, by decide⟩
      quotaLeft := by decide
      width := ⟨by decide, by decide, by decide, by decide, by decide, by decide, by decide⟩
      packer := ⟨by decide, by decide⟩
      slots := fun i h1 h2 => absurd (Nat.le_trans h1 h2) (by decide)
      entries := ⟨by decide, by decide, by decide, by decide⟩ }
  held := fun h => absurd h (by decide)
  completed := fun h => absurd h (by decide)

theorem inv_afterMiss : Inv afterMiss where
  noRequest := rfl
  params := by decide
  memory := by decide
  causeIff := by decide
  opened := fun _ =>
    { regs := ⟨by decide, by decide, by decide, by decide⟩
      quotaLeft := by decide
      width := ⟨by decide, by decide, by decide, by decide, by decide, by decide, by decide⟩
      packer := ⟨by decide, by decide⟩
      slots := fun i h1 h2 => absurd (Nat.le_trans h1 h2) (by decide)
      entries := ⟨by decide, by decide, by decide, by decide⟩ }
  held := fun _ => ⟨by decide, by decide⟩
  completed := fun h => absurd h (by decide)

theorem inv_afterHit : Inv afterHit where
  noRequest := rfl
  params := by decide
  memory := by decide
  causeIff := by decide
  opened := fun _ =>
    { regs := ⟨by decide, by decide, by decide, by decide⟩
      quotaLeft := by decide
      width := ⟨by decide, by decide, by decide, by decide, by decide, by decide, by decide⟩
      packer := ⟨by decide, by decide⟩
      slots := fun i h1 h2 => absurd (Nat.le_trans h1 h2) (by decide)
      entries := ⟨by decide, by decide, by decide, by decide⟩ }
  held := fun _ => ⟨by decide, by decide⟩
  completed := fun h => absurd h (by decide)

theorem inv_failing : Inv failing where
  noRequest := rfl
  params := by decide
  memory := by decide
  causeIff := by decide
  opened := fun _ =>
    { regs := ⟨by decide, by decide, by decide, by decide⟩
      quotaLeft := by decide
      width := ⟨by decide, by decide, by decide, by decide, by decide, by decide, by decide⟩
      packer := ⟨by decide, by decide⟩
      slots := fun i h1 h2 => absurd (Nat.le_trans h1 h2) (by decide)
      entries := ⟨by decide, by decide, by decide, by decide⟩ }
  held := fun _ => ⟨by decide, by decide⟩
  completed := fun h => absurd h (by decide)

theorem inv_saturated : Inv saturated where
  noRequest := rfl
  params := by decide
  memory := by decide
  causeIff := by decide
  opened := fun _ =>
    { regs := ⟨by decide, by decide, by decide, by decide⟩
      quotaLeft := by decide
      width := ⟨by decide, by decide, by decide, by decide, by decide, by decide, by decide⟩
      packer := ⟨by decide, by decide⟩
      slots := fun i h1 h2 => absurd (Nat.le_trans h1 h2) (by decide)
      entries := ⟨by decide, by decide, by decide, by decide⟩ }
  held := fun _ => ⟨by decide, by decide⟩
  completed := fun h => absurd h (by decide)

theorem inv_completed : Inv completed where
  noRequest := rfl
  params := by decide
  memory := by decide
  causeIff := by decide
  opened := fun h => absurd h (by decide)
  held := fun h => absurd h (by decide)
  completed := fun _ => ⟨⟨by decide, by decide, by decide, by decide⟩, rfl, by decide, rfl⟩

theorem inv_overrun : Inv overrun where
  noRequest := rfl
  params := by decide
  memory := by decide
  causeIff := by decide
  opened := fun h => absurd h (by decide)
  held := fun h => absurd h (by decide)
  completed := fun h => absurd h (by decide)

/-- The state after reset with something for the step to take. -/
def presented (x : HostInput) : State := { State.reset with hostInput := [x] }

theorem inv_presented (x : HostInput) : Inv (presented x) where
  noRequest := rfl
  params := inv_reset.params
  memory := inv_reset.memory
  causeIff := inv_reset.causeIff
  opened := fun h => by rcases h with h | h <;> cases h
  held := fun h => by cases h
  completed := fun h => by cases h

theorem witness_EncodedInstructionDecodes : wellFormed (.sinkWrite [0x84]) = true ∧ wellFormed (.sinkWrite []) = true := by
  decide

theorem witness_WidthRequestWords :
    runs (exec .wcInit opened) = true ∧ runs (exec .wcInit afterMiss) = true ∧ opened.bpp = afterMiss.bpp ∧
      opened.eofCode = afterMiss.eofCode ∧ opened.bpp.toNat < 12 := by
  decide

theorem witness_StepRunsDecodedInstruction :
    ((presented (.command 0x1200000004)).request = none ∧
      (presented (.command 0x1200000004)).hostInput = .command 0x1200000004 :: [] ∧
      decode (.cw 0x1200000004) = .ok (.begin 2 4)) ∧
    (present (.port (.ww 0b01)) State.reset).request = some (.ww 0b01) ∧ decode (.port (.ww 0b01)) = .ok .wcInit ∧
      State.reset.request = none ∧ State.reset.hostInput = [] :=
  ⟨⟨rfl, rfl, rfl⟩, rfl, rfl, rfl, rfl⟩

theorem witness_ReservedOpcodePoisons :
    (presented (.command 0)).request = none ∧ (presented (.command 0)).hostInput = .command 0 :: [] ∧
      isReserved 0x0000000000 ∧ isReserved 0x4000000000 ∧ isReserved 0xFFFFFFFFFF ∧ ¬ isReserved 0x3FFFFFFFFF := by
  decide

theorem witness_HardwareResetIsResetWithoutResponse :
    (presented .hardReset).request = none ∧ (presented .hardReset).hostInput = .hardReset :: [] := ⟨rfl, rfl⟩

theorem witness_BeginOpensSession :
    (State.reset.fsm = .idle ∧ completed.fsm = .flushed) ∧ ((0 : BitVec 4).toNat ≤ 8 ∧ (8 : BitVec 4).toNat ≤ 8) ∧
      (1 : BitVec 32) ≠ 0 ∧ (4294967295 : BitVec 32) ≠ 0 ∧ 32 ≤ State.reset.params.quotaBits ∧ 2 = max (0 : BitVec 4).toNat 2 ∧
      8 = max (8 : BitVec 4).toNat 2 := by
  decide

theorem witness_BeginClampsSmallPalettes :
    State.reset.fsm = .idle ∧ completed.fsm = .flushed ∧ (0 : BitVec 4).toNat ≤ 8 ∧ (8 : BitVec 4).toNat ≤ 8 ∧
      (1 : BitVec 32) ≠ 0 := by
  decide

theorem witness_BeginRefusedOutOfTurn :
    (opened.fsm ≠ .idle ∧ opened.fsm ≠ .flushed) ∧ (afterMiss.fsm ≠ .idle ∧ afterMiss.fsm ≠ .flushed) ∧
      (overrun.fsm ≠ .idle ∧ overrun.fsm ≠ .flushed) ∧ 8 < (9 : BitVec 4).toNat ∧ 8 < (15 : BitVec 4).toNat ∧
      (0 : BitVec 32) = 0 := by
  decide

theorem witness_PushRefusedOutOfTurn :
    State.reset.fsm = .idle ∧ overrun.fsm = .poisoned ∧ completed.fsm = .flushed := ⟨rfl, rfl, rfl⟩

theorem witness_PushFirstPixelBecomesPrefix : opened.fsm = .awaitFirst ∧ 1 < opened.quota.toNat := by decide

theorem witness_PushHitExtendsMatch :
    afterMiss.fsm = .matching ∧ 1 < afterMiss.quota.toNat ∧
      dictRead afterMiss (keyOf afterMiss.pendingPrefix (maskPixel afterMiss.bpp 0)) = some 6 := by
  decide

theorem witness_PushOrdinaryMissInserts :
    Inv afterMiss ∧ afterMiss.fsm = .matching ∧ 1 < afterMiss.quota.toNat ∧
      (0x00001 : Key) = keyOf afterMiss.pendingPrefix (maskPixel afterMiss.bpp 1) ∧ dictRead afterMiss 0x00001 = none ∧
      afterMiss.runningCode.toNat ≠ afterMiss.params.lzMaxCode ∧ answersOk 1 afterMiss :=
  ⟨inv_afterMiss, by decide⟩

theorem witness_PushSaturatedMissClears :
    Inv saturated ∧ saturated.fsm = .matching ∧ 1 < saturated.quota.toNat ∧
      dictRead saturated (keyOf saturated.pendingPrefix (maskPixel saturated.bpp 1)) = none ∧
      saturated.runningCode.toNat = saturated.params.lzMaxCode ∧ answersOk 1 saturated :=
  ⟨inv_saturated, by decide⟩

theorem witness_PushLastPixelCompletesSession :
    (Inv openedLast ∧ openedLast.fsm = .awaitFirst ∧ openedLast.quota = 1 ∧ answersOk 3 openedLast) ∧
      Inv afterHit ∧ afterHit.fsm = .matching ∧ afterHit.quota = 1 ∧ answersOk 3 afterHit :=
  ⟨⟨inv_openedLast, by decide⟩, inv_afterHit, by decide⟩

theorem witness_PushPoisonedOnlyBySinkFailure :
    Inv failing ∧ failing.fsm = .matching ∧ after (·.fsm) (exec (.push 0) failing) = some .poisoned :=
  ⟨inv_failing, by decide⟩

theorem witness_PushOutputBounds :
    (Inv afterMiss ∧ afterMiss.fsm = .matching ∧ 1 < afterMiss.quota.toNat ∧
        after (·.trace) (exec (.push 0) afterMiss) = some []) ∧
      Inv afterHit ∧ after (·.fsm) (exec (.push 0) afterHit) = some .flushed :=
  ⟨⟨inv_afterMiss, by decide⟩, inv_afterHit, by decide⟩

theorem witness_WidthFallsOnlyAtClear :
    (Inv afterMiss ∧ afterMiss.fsm = .matching ∧
        after (fun t => (t.fsm, t.runningBits)) (exec (.push 1) afterMiss) = some (.matching, 3)) ∧
      Inv { saturated with runningBits := 9 } ∧ after (·.fsm) (exec (.push 1) saturated) = some .matching :=
  ⟨⟨inv_afterMiss, by decide⟩, inv_saturated, by decide⟩

theorem witness_TransitionTable :
    Inv State.reset ∧ Inv opened ∧ Inv afterMiss ∧ Inv completed ∧ Inv overrun ∧
      (legalBegin 8 1 = true ∧ legalBegin 9 1 = false ∧ legalBegin 2 0 = false) ∧
      Inv (presented (.command 0)) ∧ isReserved 0 ∧ (presented (.command 0)).hostInput = .command 0 :: [] :=
  ⟨inv_reset, inv_opened, inv_afterMiss, inv_completed, inv_overrun, by decide, inv_presented _, by decide, rfl⟩

theorem witness_PoisonedRefusesAllButReset :
    overrun.fsm = .poisoned ∧ overrun.request = none ∧ isReserved 0 ∧
      ({ overrun with hostInput := [.command 0] } : State).hostInput = .command 0 :: [] := by
  decide

theorem witness_NoWriteWithoutPush :
    (isCommand .reset = true ∧ runs (exec .reset opened) = true) ∧
      (isCommand (.begin 8 1) = true ∧ runs (exec (.begin 8 1) completed) = true) ∧
      overrun.request = none ∧ overrun.fsm = .poisoned ∧ runs (step overrun) = true := by
  decide

/-- A step that raises: PUSH with no session. -/
theorem witness_AllocationFailureNeverRaised :
    runs (step (presented (.command 0x2000000000))) = true ∧ runs (step (presented .hardReset)) = true := by
  decide

/-- For each statement about every step: steps that answer a next state, a host command's and a port request's. -/
theorem witness_OutputOnlyGrows :
    runs (step (presented (.command 0x1200000004))) = true ∧
      runs (step (State.reset.withFetchWord 10 0x184)) = true := by
  decide

theorem witness_StepKeepsLegalStates :
    Inv (presented (.command 0x1200000004)) ∧ runs (step (presented (.command 0x1200000004))) = true :=
  ⟨inv_presented _, by decide⟩

theorem witness_LegalStateNeverStops : Inv State.reset ∧ Inv saturated ∧ Inv failing := ⟨inv_reset, inv_saturated, inv_failing⟩

theorem witness_StepKeepsStoresCanonical :
    Memory.wf afterMiss ∧ runs (step (afterMiss.withFetchWord 34 0x200600007)) = true := by
  decide

theorem witness_StepKeepsTraceFramed :
    TraceFramed { afterMiss with trace := [([0x01, 0x84], .ok)] } ∧
      runs (step (afterMiss.withFetchWord 10 0x200)) = true := by
  decide

theorem witness_StepKeepsStreamInOrder :
    StreamFollows { afterMiss with trace := [([0x00], .ok)], stream := [0x00] } ∧
      runs (step (afterMiss.withFetchWord 10 0x200)) = true :=
  ⟨fun _ => rfl, by decide⟩

theorem witness_UnspecifiedStateNeverShows :
    Inv opened ∧ Inv { opened with pendingPrefix := 77, draws := 9, slotDraw := 5 } ∧
      Agree opened { opened with pendingPrefix := 77, draws := 9, slotDraw := 5 } ∧ 3 ≤ opened.sinkScript.length :=
  ⟨inv_opened, ⟨rfl, inv_opened.params, inv_opened.memory, inv_opened.causeIff,
      fun h => ⟨⟨(inv_opened.opened h).regs.bppLow, (inv_opened.opened h).regs.bppHigh,
        (inv_opened.opened h).regs.clearIs, (inv_opened.opened h).regs.eofIs⟩, (inv_opened.opened h).quotaLeft,
        ⟨by decide, by decide, by decide, by decide, by decide, by decide, by decide⟩, ⟨by decide, by decide⟩,
        (inv_opened.opened h).slots, ⟨by decide, by decide, by decide, by decide⟩⟩,
      fun h => absurd h (by decide), fun h => absurd h (by decide)⟩,
    ⟨rfl, rfl, rfl, rfl, rfl, rfl, rfl, fun _ => ⟨rfl, rfl, rfl, rfl⟩,
      fun _ => ⟨⟨rfl, rfl, rfl⟩, ⟨rfl, rfl⟩, rfl, rfl, rfl⟩, fun h => absurd h (by decide)⟩, by decide⟩

/-- V-S1: `IMAGE 2: 1` writes `[02 4C 01] [00]`. -/
theorem witness_SessionWritesItsCodes :
    State.reset.fsm = .idle ∧ State.reset.params.Valid ∧ (2 : BitVec 4).toNat ≤ 8 ∧ [(1 : Byte)] ≠ [] ∧
      [(1 : Byte)].length < 2 ^ 32 ∧
      [[0x02, 0x4C, 0x01], [0x00]] = Wire.sessionBlocks Config.defaults (effectiveBpp 2).toNat
        ([(1 : Byte)].map (fun p => (maskPixel (effectiveBpp 2) p).toNat)) ∧
      answersOk 2 { State.reset with sinkScript := [.ok, .ok] } := by
  decide

/-- P2 and V-S16 from the reference alone: the blocks the spec writes out. -/
theorem test_session_blocks :
    Wire.sessionBlocks Config.defaults 2 [1, 0, 2, 3, 1] = [[0x03, 0x0C, 0x34, 0x51], [0x00]] ∧
      Wire.sessionBlocks Config.defaults 3 [1, 2, 3, 4, 5, 6, 7, 0, 1, 2] =
        [[0x06, 0x18, 0x32, 0x54, 0x76, 0x40, 0x25], [0x00]] := by
  decide

theorem witness_DictReadsSeeWritesAndClears :
    dictRead afterMiss 0x00600 = none ∧ afterMiss.dict.length < afterMiss.params.lzMaxCode ∧
      (0x00000 : Key) ≠ 0x00600 := by
  decide

theorem witness_BufferReadsLastWrite : (1 : BitVec 8) ≠ 0 ∧ (255 : BitVec 8) ≠ 0 ∧ (254 : BitVec 8) ≠ 255 := by decide

theorem witness_DictLookupAnswers :
    dictRead afterMiss 0x00000 = some 6 ∧ dictRead afterMiss 0xFFFFF = none := by decide

theorem witness_DictInsertGainsEntry :
    dictRead afterMiss 0xFFEFF = none ∧ afterMiss.dict.length < afterMiss.params.lzMaxCode := by decide

theorem witness_DictInsertFaultsOutsidePreconditions :
    dictRead afterMiss 0x00000 ≠ none ∧
      dictRead { afterMiss with params := { lzMaxCode := 1, lzBits := 12, quotaBits := 32 } } 0x00001 = none ∧
      1 ≤ ({ afterMiss with params := { lzMaxCode := 1, lzBits := 12, quotaBits := 32 } } : State).dict.length := by
  decide

/-- V-D1 to V-D10 as one sequence. -/
theorem witness_CamRefinesMap :
    (4096 : Nat) ≤ 4096 ∧ Organisation.emitterIssues 6 4096 [] 6
      [.lookup 0x00000, .insert 0x00000, .lookup 0x00000, .lookup 0x00600, .insert 0x00600, .lookup 0x00001, .clear,
        .lookup 0x00600, .lookup 0xFFFFF, .insert 0xFFFFF, .lookup 0xFFFFF] = true := by
  decide

/-- The same sequence as the abstract map answers it. -/
theorem witness_HashedSramRefinesMap :
    Organisation.emitterIssues 6 4096 [] 6 [.insert 0x00000, .lookup 0x00000, .clear, .lookup 0x00000] = true ∧
      Organisation.mapAnswers 6 [] 6 [.insert 0x00000, .lookup 0x00000, .clear, .lookup 0x00000] = [some 6, none] := by
  decide

theorem witness_WcInitStartsWidths :
    opened.bpp.toNat < 12 ∧ saturated.bpp.toNat < 12 ∧ ({ opened with bpp := 14 } : State).bpp.toNat < 15 := by
  decide

theorem witness_WcAdvanceCountsOne :
    opened.params.Valid ∧ opened.runningCode.toNat < opened.params.lzMaxCode ∧
      ({ opened with runningCode := 4095 } : State).runningCode.toNat < opened.params.lzMaxCode := by
  decide

theorem witness_WcGrowWidensAtThreshold :
    opened.params.lzBits ≤ 12 ∧
      (({ opened with runningCode := 8 } : State).maxCode1.toNat ≤ ({ opened with runningCode := 8 } : State).runningCode.toNat ∧
        opened.runningBits.toNat < opened.params.lzBits) ∧
      ¬ (opened.maxCode1.toNat ≤ opened.runningCode.toNat ∧ opened.runningBits.toNat < opened.params.lzBits) := by
  decide

theorem witness_WidthFollowsSchedule : opened.params.Valid ∧ SessionRegs opened ∧ WidthRegs opened :=
  ⟨by decide, (inv_opened.opened (.inl rfl)).regs, (inv_opened.opened (.inl rfl)).width⟩

theorem witness_SaturatedWidthIsTwelve :
    ∃ s : State, s.params = Config.defaults ∧ SessionRegs s ∧ WidthRegs s ∧ s.runningCode.toNat = 4096 :=
  ⟨{ opened with runningCode := 4096, runningBits := 12, maxCode1 := 4096 }, rfl,
    ⟨by decide, by decide, by decide, by decide⟩,
    ⟨by decide, by decide, by decide, by decide, by decide, by decide, by decide⟩, by decide⟩

theorem witness_WidthInvariantKept :
    opened.params.Valid ∧ SessionRegs opened ∧ WidthRegs opened ∧ opened.runningCode.toNat < opened.params.lzMaxCode :=
  ⟨by decide, (inv_opened.opened (.inl rfl)).regs, (inv_opened.opened (.inl rfl)).width, by decide⟩

theorem witness_GrowthReadingsAgree : opened.params.Valid ∧ SessionRegs opened ∧ WidthRegs opened :=
  ⟨by decide, (inv_opened.opened (.inl rfl)).regs, (inv_opened.opened (.inl rfl)).width⟩

/-- V-P8's accumulator at the widest. -/
theorem witness_EmitSpecialAppendsBits :
    ∃ s : State, PackerRegs s ∧ s.runningBits.toNat ≤ 12 ∧ (0xFFF : Code).toNat < 2 ^ s.runningBits.toNat ∧ answersOk 1 s :=
  ⟨{ opened with shiftValue := 0x7F, shiftBits := 7, runningBits := 12 }, ⟨by decide, by decide⟩, by decide⟩

theorem witness_EmitDataAppendsBitsThenGrows :
    PackerRegs opened ∧ opened.runningBits.toNat ≤ 12 ∧ (7 : Code).toNat < 2 ^ opened.runningBits.toNat ∧
      opened.params.lzBits ≤ 12 ∧ answersOk 1 opened :=
  ⟨⟨by decide, by decide⟩, by decide⟩

theorem witness_FlushHandsOverEveryBit : PackerRegs opened ∧ answersOk 3 opened := ⟨⟨by decide, by decide⟩, by decide⟩

theorem witness_SbPutStoresNextSlot :
    opened.sbCount.toNat < 255 ∧ ({ opened with sbCount := 254 } : State).sbCount.toNat < 255 := by decide

theorem witness_SbPutWritesFullBlock : fullBuffer.sbCount.toNat = 255 ∧ answersOk 1 fullBuffer := by decide

theorem witness_SbTerminateWritesLastBlocks :
    answersOk 2 opened ∧ opened.sbCount = 0 ∧ answersOk 2 fullBuffer ∧ fullBuffer.sbCount ≠ 0 := by decide

/-- The last line is V-F9: the first write is acknowledged, the second fails. -/
theorem witness_FramerStopsAtFailedWrite :
    (failing.sinkScript = .fail :: [] ∧ failing.sbCount = 0 ∧
      ({ failing with sbCount := 255 } : State).sbCount.toNat = 255 ∧
      ({ failing with sbCount := 1 } : State).sbCount ≠ 0) ∧
    (({ fullBuffer with sinkScript := [.ok, .fail] } : State).sinkScript = .ok :: .fail :: [] ∧ fullBuffer.sbCount ≠ 0) := by
  decide

theorem witness_SinkWriteFollowsAnswer :
    (0 : Byte).toNat = ([] : List Byte).length ∧ (2 : Byte).toNat = [(0x84 : Byte), 0x51].length ∧
      opened.sinkScript = .ok :: [.ok, .ok] ∧ failing.sinkScript = .fail :: [] := by
  decide

theorem witness_PseudoInstructionsExpand :
    (∀ p ∈ [0, 255], p < 2 ^ 8) ∧ 15 < 2 ^ 4 ∧ [0, 255].length < 2 ^ 32 ∧ ∃ p ∈ [0, 256], 2 ^ 8 ≤ p := by
  decide

end Sys2Proof.Tests
end

section
/-!
PROOF. The step read forwards (spec/00_scope.md R6): what `fetch` takes in each of its cases, what `step` does with it,
and from these that a step runs the decoded instruction.
-/

namespace Sys2Proof.Machine

section Fetch

variable {s : State}

/-- A request at an inner port goes before the command stream. -/
theorem fetch_of_request {w : PortWord} (hr : s.request = some w) :
    fetch s = (readPort w, { s with request := none }) := by
  simp [fetch, hr]

/-- R56: the first word of the command stream is taken, and only that one. -/
theorem fetch_of_command {w : BitVec 40} {rest : List HostInput} (hr : s.request = none)
    (hi : s.hostInput = .command w :: rest) :
    fetch s = (readCommand w, { s with hostInput := rest }) := by
  simp [fetch, hr, hi]

theorem fetch_of_idle (hr : s.request = none) (hi : s.hostInput = []) : fetch s = (.nothing, s) := by
  simp [fetch, hr, hi]

theorem readCommand_of_decode {w : BitVec 40} {i : Instr} (hd : decode (.cw w) = .ok i) :
    readCommand w = .run i := by
  have hw : decodeCw w = .ok i := hd
  simp [readCommand, hw]

theorem readPort_of_decode {w : PortWord} {i : Instr} (hd : decode (.port w) = .ok i) :
    readPort w = .run i := by
  have hw : decodePort w = .ok i := hd
  simp [readPort, hw]

theorem step_of_fetch_run {t : State} {i : Instr} (hf : fetch s = (.run i, t)) : step s = exec i t := by
  simp [step, hf]

theorem step_of_fetch_nothing {t : State} (hf : fetch s = (.nothing, t)) : step s = .next t := by
  simp [step, hf]

end Fetch

/-- Settles O5: in each of the three cases `fetch` says what is taken, and the decoder that it is an operation. -/
theorem stepRunsDecodedInstruction : Obligations.StepRunsDecodedInstruction := by
  refine ⟨?command, ?request, ?idle⟩
  case command =>
    intro s w rest i hr hi hd
    have hf := fetch_of_command hr hi
    rw [readCommand_of_decode hd] at hf
    exact step_of_fetch_run hf
  case request =>
    intro s w i hr hd
    have hf := fetch_of_request hr
    rw [readPort_of_decode hd] at hf
    exact step_of_fetch_run hf
  case idle =>
    intro s hr hi
    exact step_of_fetch_nothing (fetch_of_idle hr hi)

end Sys2Proof.Machine
end

section
/-!
PROOF. A rule for operations that complete or raise: what holds at either end of a `Run`, through `andThen`, `finish`
and the loop of the packer (spec/60_exceptions.md R206).
-/

namespace Sys2Proof.Machine

/-- Where the operation completes, its state meets `P`; where it raises, the state it raised in meets `E`. -/
def Run.Ends (P E : State → Prop) : Run → Prop
  | .done s => P s
  | .raised _ s => E s

section Ends

variable {P Q E F : State → Prop} {r : Run} {s : State}

@[simp] theorem ends_done : (Run.done s).Ends P E ↔ P s := Iff.rfl

@[simp] theorem ends_raised {k : ErrorKind} : (Run.raised k s).Ends P E ↔ E s := Iff.rfl

theorem Run.Ends.mono (h : r.Ends P E) (hP : ∀ t, P t → Q t) (hE : ∀ t, E t → F t) : r.Ends Q F := by
  cases r with
  | done t => exact hP t h
  | raised k t => exact hE t h

theorem Run.Ends.and (h : r.Ends P E) (g : r.Ends Q F) : r.Ends (fun t => P t ∧ Q t) (fun t => E t ∧ F t) := by
  cases r <;> exact ⟨h, g⟩

/-- Nothing runs after a `raise`, so the second operation only has to answer for where the first completed (R187). -/
theorem Run.Ends.andThen {f : State → Run} (h : r.Ends P E) (hf : ∀ t, P t → (f t).Ends Q E) :
    (r.andThen f).Ends Q E := by
  cases r with
  | done t => exact hf t h
  | raised k t => exact h

theorem Run.ends_of_last (h : P r.last) : r.Ends P P := by
  cases r <;> exact h

/-- What a command leaves, by how its operations ended (R206). -/
theorem finish_of_ends (h : r.Ends P E) (hP : ∀ t, P t → Q t) (hE : ∀ k t, E t → Q (raiseError k t)) :
    Q (finish r) := by
  cases r with
  | done t => exact hP t h
  | raised k t => exact hE k t h

/-- What every byte put and every shift keeps, the extraction loop keeps (R160, R163). -/
theorem extractWhile_ends (hput : ∀ b t, P t → (sbPut b t).Ends P E) (hshift : ∀ t, P t → P (shiftOut t))
    (least turns : Nat) (h : P s) : (extractWhile least turns s).Ends P E := by
  induction turns generalizing s with
  | zero => exact h
  | succ n ih =>
    simp only [extractWhile]
    split
    · have hbyte : (extractByte s).Ends P E := (hput _ s h).andThen hshift
      exact hbyte.andThen fun t ht => ih ht
    · exact h

end Ends

end Sys2Proof.Machine
end

section
/-!
PROOF. Every step keeps the canonical form of dictionary and buffer (spec/10_state.md R29, spec/20_memory.md R54,
spec/30_encoding.md R71): the primitives that write a store keep it, and every operation is made of them.
-/

namespace Sys2Proof.Machine

/-- The canonical form holds where the operation ends, completed or not. -/
abbrev Run.Canonical (r : Run) : Prop := r.Ends Memory.wf Memory.wf

section Canonical

variable {s t : State}

theorem finish_wf {r : Run} (h : r.Canonical) : Memory.wf (finish r) :=
  finish_of_ends h (fun _ h => h) (fun k _ h => raiseError_wf k h)

/-! ### The framer and the packer -/

theorem sinkWrite_canonical (bytes : List Byte) (h : Memory.wf s) : (sinkWrite bytes s).Canonical := by
  rcases sinkWrite_cases bytes s with ⟨_, hw⟩ | ⟨_, hw⟩ <;> rw [hw] <;> exact h

theorem putByte_wf (b : Byte) (h : Memory.wf s) : Memory.wf (putByte b s) :=
  bufWrite_wf (s := { s with sbCount := s.sbCount + 1 }) _ b h

theorem sbPut_canonical (b : Byte) (s : State) (h : Memory.wf s) : (sbPut b s).Canonical := by
  rcases sbPut_cases b s with ⟨_, hp⟩ | ⟨_, _, hp⟩ | ⟨_, _, hp⟩ <;> rw [hp]
  · exact putByte_wf b h
  · exact putByte_wf b (bufEmpty_wf (s := sinkAnswered (heldBlock s) s) h)
  · exact h

theorem flushPartial_canonical (h : Memory.wf s) : (flushPartial s).Canonical := by
  rcases flushPartial_cases s with ⟨_, hp⟩ | ⟨_, _, hp⟩ | ⟨_, _, hp⟩ <;> rw [hp]
  · exact h
  · exact bufEmpty_wf (s := sinkAnswered (heldBlock s) s) h
  · exact h

theorem sbTerminate_canonical (h : Memory.wf s) : (sbTerminate s).Canonical :=
  (flushPartial_canonical h).andThen fun _ ht => sinkWrite_canonical _ ht

theorem extractWhile_canonical (least turns : Nat) (h : Memory.wf s) : (extractWhile least turns s).Canonical :=
  extractWhile_ends sbPut_canonical (fun _ ht => ht) least turns h

theorem pack_canonical (c : Code) (h : Memory.wf s) : (pack c s).Canonical :=
  extractWhile_canonical 8 3 (s := shiftIn c s) h

theorem wcGrow_wf (h : Memory.wf s) : Memory.wf (wcGrow s) := by
  rcases wcGrow_cases s with ⟨_, _, hg⟩ | ⟨_, hg⟩ <;> rw [hg] <;> exact h

theorem emitData_canonical (c : Code) (h : Memory.wf s) : (emitData c s).Canonical :=
  (pack_canonical c h).andThen fun _ ht => wcGrow_wf ht

theorem flush_canonical (h : Memory.wf s) : (flush s).Canonical :=
  (extractWhile_canonical 1 4 h).andThen fun _ ht => sbTerminate_canonical ht

/-! ### The commands -/

theorem openSession_wf (req : BitVec 4) (quota : BitVec 32) (h : Memory.wf s) :
    Memory.wf (openSession req quota s) :=
  dictClearAll_wf (s := wcInit (bufEmpty (forgetPrefix (loadSession req quota s))))
    (bufEmpty_wf (s := forgetPrefix (loadSession req quota s)) h)

theorem execBegin_wf {req : BitVec 4} {quota : BitVec 32} (h : Memory.wf s) (he : execBegin req quota s = .next t) :
    Memory.wf t := by
  have hsession : (beginSession req quota s).Canonical :=
    (pack_canonical _ (openSession_wf req quota h)).andThen fun _ ht => ht
  simp only [execBegin] at he
  split_ifs at he <;> cases he
  · exact raiseError_wf _ h
  · exact raiseError_wf _ h
  · exact raiseError_wf _ h
  · exact finish_wf hsession

theorem pushSaturated_canonical (h : Memory.wf s) : (pushSaturated s).Canonical :=
  (pack_canonical _ h).andThen fun u hu => dictClearAll_wf (s := wcInit u) hu

theorem pushInsert_canonical {key : Key} {r : Run} (h : Memory.wf s) (hr : pushInsert key s = .ok r) :
    r.Canonical := by
  unfold pushInsert at hr
  split at hr
  · cases hr
  · next u hw =>
    have hu : Memory.wf u := dictWrite_wf h hw
    cases hr
    exact hu

theorem pushMiss_canonical {p : Byte} {r : Run} (h : Memory.wf s) (hr : pushMiss p s = .ok r) : r.Canonical := by
  have hdata := emitData_canonical s.pendingPrefix h
  unfold pushMiss at hr
  split at hr
  · next hk =>
    cases hr
    rwa [hk] at hdata
  · next u hk =>
    rw [hk] at hdata
    have hu : Memory.wf (setPrefix (pixelCode p) u) := hdata
    split at hr
    · cases hr
      exact pushSaturated_canonical hu
    · exact pushInsert_canonical hu hr

theorem pushPixel_canonical {p : Byte} {r : Run} (h : Memory.wf s) (hr : pushPixel p s = .ok r) : r.Canonical := by
  unfold pushPixel pushMatching at hr
  split at hr
  · cases hr
    exact h
  · split at hr
    · cases hr
      exact h
    · exact pushMiss_canonical h hr

theorem terminate_canonical (h : Memory.wf s) : (terminate s).Canonical := by
  unfold terminate
  split
  · exact (emitData_canonical _ h).andThen fun _ ht => (pack_canonical _ ht).andThen fun _ hu =>
      (flush_canonical hu).andThen fun v hv => forgetDict_wf (s := forgetPrefix { v with fsm := .flushed }) hv
  · exact h

theorem execPush_wf {pixel : Byte} (h : Memory.wf s) (he : execPush pixel s = .next t) : Memory.wf t := by
  unfold execPush pushSession at he
  split_ifs at he
  · cases he
    exact raiseError_wf _ h
  · cases he
    exact raiseError_wf _ h
  · split at he
    · cases he
    · next r hr =>
      cases he
      have hpixel : r.Canonical := pushPixel_canonical (s := countPixel s) h hr
      exact finish_wf ((hpixel.andThen fun _ ht => terminate_canonical ht).andThen fun _ ht => ht)

theorem execDictInsert_wf {key : Key} {code : Code} (h : Memory.wf s) (he : execDictInsert key code s = .next t) :
    Memory.wf t := by
  unfold execDictInsert at he
  split at he
  · cases he
  · next u hw =>
    have hu : Memory.wf u := dictWrite_wf h hw
    cases he
    exact hu

/-- Every operation, a command's or a port's, keeps the canonical form. -/
theorem exec_wf {i : Instr} (h : Memory.wf s) (he : exec i s = .next t) : Memory.wf t := by
  cases i with
  | begin req quota => exact execBegin_wf h he
  | push pixel => exact execPush_wf h he
  | dictInsert key code => exact execDictInsert_wf h he
  | reset => cases he; exact resetCore_wf s
  | dictLookup key => cases he; exact h
  | dictClear =>
    have hclear : Memory.wf (dictClearAll s) := dictClearAll_wf h
    cases he
    exact hclear
  | wcInit => cases he; exact h
  | wcAdvance => cases he; exact h
  | wcGrow => cases he; exact wcGrow_wf h
  | pkEmitData code => cases he; exact finish_wf (emitData_canonical code h)
  | pkEmitSpecial code => cases he; exact finish_wf (pack_canonical code h)
  | pkFlush => cases he; exact finish_wf (flush_canonical h)
  | sbPut byte => cases he; exact finish_wf (sbPut_canonical byte s h)
  | sbTerminate => cases he; exact finish_wf (sbTerminate_canonical h)
  | sinkWrite payload => cases he; exact finish_wf (sinkWrite_canonical _ h)

/-- Taking what is next leaves both stores alone. -/
theorem fetch_wf (h : Memory.wf s) : Memory.wf (fetch s).2 := by
  rcases fetch_cases s with ⟨_, _, hf⟩ | ⟨_, _, hf⟩ | ⟨_, _, _, hf⟩ | ⟨_, _, _, _, hf⟩ <;> rw [hf] <;> exact h

end Canonical

/-- Settles O31: what `fetch` leaves is canonical, and so is what each thing a step can do makes of it. -/
theorem stepKeepsStoresCanonical : Obligations.StepKeepsStoresCanonical := by
  intro s t h hstep
  have hf := fetch_wf h
  rcases step_cases hstep with ⟨_, rfl⟩ | ⟨_, rfl⟩ | ⟨i, _, he⟩ | ⟨_, rfl⟩
  · exact hf
  · exact resetCore_wf _
  · exact exec_wf hf he
  · exact raiseError_wf _ hf

end Sys2Proof.Machine
end

section
/-!
PROOF. The legal states, part by part (spec/10_state.md R21 to R29): what each part of the invariant depends on, and the
two ends of a command that need no session, the reset and the error.
-/

namespace Sys2Proof.Machine

/-- The part of the invariant that holds in the middle of a command too, and that an error or a reset starts from. -/
structure Grounded (s : State) : Prop where
  noRequest : s.request = none
  params : s.params.Valid
  memory : Memory.wf s
  causeIff : s.cause ≠ none ↔ s.fsm = .poisoned

/-- An open session in the middle of a command: the parts that hold between any two of its operations. -/
structure Session (s : State) : Prop where
  grounded : Grounded s
  alive : s.fsm = .awaitFirst ∨ s.fsm = .matching
  regs : SessionRegs s
  packer : PackerRegs s
  slots : SlotsWritten s

/-- A session between two codes with a match running: the invariant but for the quota. -/
structure Matching (s : State) : Prop where
  session : Session s
  matching : s.fsm = .matching
  width : WidthRegs s
  entries : DictEntries s
  held : PrefixHeld s

section Parts

variable {s t : State}

/-! ### What each part depends on -/

theorem SessionRegs.congr (h : SessionRegs s) (hb : t.bpp = s.bpp) (hc : t.clearCode = s.clearCode)
    (he : t.eofCode = s.eofCode) : SessionRegs t := by
  obtain ⟨h1, h2, h3, h4⟩ := h
  exact ⟨by rwa [hb], by rwa [hb], by rwa [hc, hb], by rwa [he, hb]⟩

theorem WidthRegs.congr (h : WidthRegs s) (hw : sameWidth s t) (hb : t.bpp = s.bpp) (he : t.eofCode = s.eofCode)
    (hp : t.params = s.params) : WidthRegs t := by
  obtain ⟨hcode, hbits, hmax⟩ := hw
  obtain ⟨h1, h2, h3, h4, h5, h6, h7⟩ := h
  exact ⟨by rwa [he, hcode], by rwa [hcode, hp], by rwa [hmax, hbits], by rwa [hb, hbits], by rwa [hbits, hp],
    by rwa [hcode, hmax], by rwa [hbits, hb, hcode]⟩

theorem PackerRegs.congr (h : PackerRegs s) (hk : samePacker s t) : PackerRegs t := by
  obtain ⟨hv, hb⟩ := hk
  exact ⟨by rw [hb]; exact h.bitsHigh, by rw [hb, hv]; exact h.valueFits⟩

theorem DictEntries.congr (h : DictEntries s) (hd : t.dict = s.dict) (hc : t.runningCode = s.runningCode)
    (hb : t.bpp = s.bpp) (he : t.eofCode = s.eofCode) : DictEntries t := by
  obtain ⟨h1, h2, h3, h4⟩ := h
  exact ⟨by rwa [hd, hc, he], by rwa [hd, hc, he], by rwa [hd], by simpa only [hd, hb, he, isDataCode] using h4⟩

theorem PrefixHeld.congr (h : PrefixHeld s) (hp : t.pendingPrefix = s.pendingPrefix)
    (hc : t.runningCode = s.runningCode) (hb : t.bpp = s.bpp) (he : t.eofCode = s.eofCode) : PrefixHeld t :=
  ⟨by simpa only [isDataCode, hp, hb, he] using h.dataCode, by rw [hp, hc]; exact h.assigned⟩

theorem SlotsWritten.congr (h : SlotsWritten s) (hc : t.sbCount = s.sbCount) (hd : t.sbData = s.sbData) :
    SlotsWritten t := by
  simpa only [SlotsWritten, hc, hd] using h

theorem Grounded.congr (h : Grounded s) (hm : Memory.wf t) (hcontrol : sameControl s t) (hhost : sameHost s t) :
    Grounded t := by
  obtain ⟨hf, hc⟩ := hcontrol
  obtain ⟨_, hr, hp⟩ := hhost
  exact ⟨hr.trans h.noRequest, by rw [hp]; exact h.params, hm, by rw [hc, hf]; exact h.causeIff⟩

/-- Of a session's parts only the two stores are written by operations that leave these items alone. -/
theorem Session.congr (h : Session s) (hm : Memory.wf t) (hcontrol : sameControl s t) (hhost : sameHost s t)
    (hb : t.bpp = s.bpp) (hc : t.clearCode = s.clearCode) (he : t.eofCode = s.eofCode) (hpack : samePacker s t)
    (hcount : t.sbCount = s.sbCount) (hdata : t.sbData = s.sbData) : Session t :=
  ⟨h.grounded.congr hm hcontrol hhost, by rw [hcontrol.1]; exact h.alive, h.regs.congr hb hc he, h.packer.congr hpack,
    SlotsWritten.congr h.slots hcount hdata⟩

/-- The invariant depends on the items of R20 and the request alone. -/
theorem Inv.congr (h : Inv s) (hcontrol : sameControl s t) (hsession : sameSession s t) (hwidth : sameWidth s t)
    (hpack : samePacker s t) (hcount : t.sbCount = s.sbCount) (hdata : t.sbData = s.sbData) (hdict : t.dict = s.dict)
    (hrequest : t.request = s.request) (hparams : t.params = s.params) : Inv t := by
  obtain ⟨hf, hc⟩ := hcontrol
  obtain ⟨hb, hclear, heof, hq, hpre⟩ := hsession
  refine ⟨hrequest.trans h.noRequest, hparams ▸ h.params, Memory.wf_congr hdict hdata h.memory, ?_, ?_, ?_, ?_⟩
  · rw [hc, hf]
    exact h.causeIff
  · rw [hf]
    intro ho
    obtain ⟨regs, quota, width, packer, slots, entries⟩ := h.opened ho
    exact ⟨regs.congr hb hclear heof, hq ▸ quota, width.congr hwidth hb heof hparams, packer.congr hpack,
      SlotsWritten.congr slots hcount hdata, entries.congr hdict hwidth.1 hb heof⟩
  · rw [hf]
    exact fun hm => (h.held hm).congr hpre hwidth.1 hb heof
  · rw [hf]
    intro hd
    obtain ⟨regs, quota, ⟨hv, hz⟩, count⟩ := h.completed hd
    exact ⟨regs.congr hb hclear heof, hq.trans quota, ⟨hpack.1.trans hv, hpack.2.trans hz⟩, hcount.trans count⟩

/-! ### The invariant and its parts -/

theorem Inv.grounded (h : Inv s) : Grounded s := ⟨h.noRequest, h.params, h.memory, h.causeIff⟩

theorem Inv.session (h : Inv s) (ho : s.fsm = .awaitFirst ∨ s.fsm = .matching) : Session s :=
  ⟨h.grounded, ho, (h.opened ho).regs, (h.opened ho).packer, (h.opened ho).slots⟩

theorem Inv.matching (h : Inv s) (hm : s.fsm = .matching) : Matching s :=
  ⟨h.session (.inr hm), hm, (h.opened (.inr hm)).width, (h.opened (.inr hm)).entries, h.held hm⟩

theorem Inv.cause_none (h : Inv s) (hf : s.fsm ≠ .poisoned) : s.cause = none :=
  of_not_not fun hc => hf (h.causeIff.mp hc)

theorem Session.cause_none (h : Session s) : s.cause = none := by
  refine of_not_not fun hc => ?_
  have hp := h.grounded.causeIff.mp hc
  rcases h.alive with hf | hf <;> simp [hf] at hp

/-- With pixels still to come the parts make up the invariant (R26). -/
theorem Session.inv (h : Session s) (hw : WidthRegs s) (hd : DictEntries s) (hq : 0 < s.quota.toNat)
    (hp : s.fsm = .matching → PrefixHeld s) : Inv s where
  noRequest := h.grounded.noRequest
  params := h.grounded.params
  memory := h.grounded.memory
  causeIff := h.grounded.causeIff
  opened := fun _ => ⟨h.regs, hq, hw, h.packer, h.slots, hd⟩
  held := hp
  completed := fun hf => by rcases h.alive with ha | ha <;> simp [ha] at hf

theorem Matching.inv (h : Matching s) (hq : s.quota ≠ 0) : Inv s :=
  h.session.inv h.width h.entries (Nat.pos_of_ne_zero fun h0 => hq (BitVec.eq_of_toNat_eq (by simpa using h0)))
    fun _ => h.held

/-- Without a session nothing is asked of its registers. -/
theorem Grounded.inv_of_closed (h : Grounded s) (hf : s.fsm = .idle ∨ s.fsm = .poisoned) : Inv s where
  noRequest := h.noRequest
  params := h.params
  memory := h.memory
  causeIff := h.causeIff
  opened := fun ho => by rcases hf with hf | hf <;> simp [hf] at ho
  held := fun ho => by rcases hf with hf | hf <;> simp [hf] at ho
  completed := fun ho => by rcases hf with hf | hf <;> simp [hf] at ho

/-- An error leaves a legal state, with a cause (R24, R206). -/
theorem Grounded.inv_raiseError (k : ErrorKind) (h : Grounded s) : Inv (raiseError k s) := by
  obtain ⟨hfsm, hcause, _⟩ := raiseError_control k s
  obtain ⟨_, _, _, _, hrequest, hparams, _⟩ := raiseError_outside k s
  refine Grounded.inv_of_closed ⟨hrequest.trans h.noRequest, hparams ▸ h.params, raiseError_wf k h.memory, ?_⟩
    (.inr hfsm)
  refine ⟨fun _ => hfsm, fun _ => ?_⟩
  rw [hcause]
  split
  · exact h.causeIff.mpr ‹_›
  · simp

/-- Both forms of reset leave a legal state (R230). -/
theorem Grounded.inv_resetCore (h : Grounded s) : Inv (resetCore s) :=
  Grounded.inv_of_closed ⟨h.noRequest, h.params, resetCore_wf s, by simp [resetCore]⟩ (.inl rfl)

theorem Inv.respondOk (h : Inv s) : Inv (respondOk s) :=
  h.congr ⟨rfl, rfl⟩ ⟨rfl, rfl, rfl, rfl, rfl⟩ ⟨rfl, rfl, rfl⟩ ⟨rfl, rfl⟩ rfl rfl rfl rfl rfl

theorem Inv.hostInput (h : Inv s) (rest : List HostInput) : Inv { s with hostInput := rest } :=
  h.congr ⟨rfl, rfl⟩ ⟨rfl, rfl, rfl, rfl, rfl⟩ ⟨rfl, rfl, rfl⟩ ⟨rfl, rfl⟩ rfl rfl rfl rfl rfl

end Parts

/-! ### Right after reset -/

/-- Settles O8: each of the seven items is a field of the reset state, or computed from its `fsm`. -/
theorem resetStateIsIdle : Obligations.ResetStateIsIdle := ⟨rfl, rfl, rfl, rfl, rfl, rfl, rfl⟩

theorem grounded_reset : Grounded State.reset := ⟨rfl, by decide, Memory.wf_reset, by decide⟩

/-- Settles O28: the reset state is idle, so only its ground is asked for, and its trace and stream are empty. -/
theorem invariantsHoldAtReset : Obligations.InvariantsHoldAtReset :=
  ⟨grounded_reset.inv_of_closed (.inl rfl), fun _ he => absurd he List.not_mem_nil, fun _ => rfl⟩

end Sys2Proof.Machine
end

section
/-!
PROOF. What the framer, the packer and the width controller make of an open session (spec/43_bit_packer.md R164,
spec/44_subblock_framer.md R181, R182, spec/42_width_controller.md R155).
-/

namespace Sys2Proof.Machine

/-! ### What is kept, item by item -/

section Kept

variable {s t : State}

theorem OutsideKept.fsm (h : OutsideKept s t) : t.fsm = s.fsm := h.control.1

theorem OutsideKept.cause (h : OutsideKept s t) : t.cause = s.cause := h.control.2

theorem OutsideKept.runningCode (h : OutsideKept s t) : t.runningCode = s.runningCode := h.width.1

theorem OutsideKept.quota (h : OutsideKept s t) : t.quota = s.quota := by
  obtain ⟨_, _, _, hq, _⟩ := h.session
  exact hq

theorem OutsideKept.params (h : OutsideKept s t) : t.params = s.params := by
  obtain ⟨_, _, hp⟩ := h.host
  exact hp

/-- D6, D7: a valid ceiling of the width is one of twelve bits. -/
theorem lzBits_le (hp : s.params.Valid) : s.params.lzBits ≤ 12 := by
  obtain ⟨_, _, hlz, _⟩ := hp
  exact hlz

/-- D8: valid parameters saturate the dictionary within the twelve bits of a code. -/
theorem lzMaxCode_le (hp : s.params.Valid) : s.params.lzMaxCode ≤ 4096 := by
  obtain ⟨_, hcap, hlz, _⟩ := hp
  exact hcap.trans (Nat.pow_le_pow_right (by decide) hlz)

end Kept

/-! ### The framer -/

section Framer

variable {s t : State}

theorem putByte_slots (b : Byte) (hc : s.sbCount.toNat < 255) (h : SlotsWritten s) : SlotsWritten (putByte b s) := by
  obtain ⟨hcount, heq⟩ := putByte_spec hc b
  intro i h1 hi
  rw [hcount] at hi
  rw [heq]
  rcases Nat.lt_or_eq_of_le hi with hlt | rfl
  · rw [storeGet_put_other _ _ _ (Nat.ne_of_lt hlt)]
    exact h i h1 (Nat.le_of_lt_succ hlt)
  · rw [storeGet_put_same]
    rfl

theorem bufEmpty_slots (s : State) : SlotsWritten (bufEmpty s) := fun _ h1 h0 => absurd (Nat.le_trans h1 h0) (by simp)

theorem sbPut_slots (b : Byte) (s : State) (h : SlotsWritten s) :
    (sbPut b s).Ends SlotsWritten (fun _ => True) := by
  rcases sbPut_cases b s with ⟨hc, hp⟩ | ⟨_, _, hp⟩ | ⟨_, _, hp⟩ <;> rw [hp]
  · exact putByte_slots b hc h
  · exact putByte_slots b (by simp) (bufEmpty_slots _)
  · trivial

/-- What SB.TERMINATE leaves alone, and that the buffer is empty after it (R182). -/
theorem sbTerminate_ends (s : State) :
    (sbTerminate s).Ends (fun t => (OutsideKept s t ∧ samePacker s t) ∧ t.sbCount = 0) (OutsideKept s) := by
  have hend : ∀ u : State, OutsideKept s u ∧ samePacker s u → u.sbCount = 0 →
      (sinkWrite [0x00] u).Ends (fun t => (OutsideKept s t ∧ samePacker s t) ∧ t.sbCount = 0) (OutsideKept s) := by
    intro u hu h0
    have hk := (sinkAnswered_kept [0x00] u).1
    rcases sinkWrite_cases [0x00] u with ⟨_, hw⟩ | ⟨_, hw⟩ <;> rw [hw]
    · exact ⟨⟨hu.1.trans hk, hu.2⟩, h0⟩
    · exact hu.1.trans hk
  have hwrite := (sinkAnswered_kept (heldBlock s) s).1
  rcases flushPartial_cases s with ⟨h0, hp⟩ | ⟨_, _, hp⟩ | ⟨_, _, hp⟩ <;> rw [sbTerminate, hp]
  · exact hend s ⟨.rfl' s, rfl, rfl⟩ h0
  · exact hend _ ⟨hwrite.trans (bufEmpty_kept _).1, rfl, rfl⟩ rfl
  · exact hwrite

end Framer

/-! ### The packer -/

section Packer

variable {s t : State} {c : Code}

theorem pack_outside (c : Code) (s : State) : (pack c s).Ends (OutsideKept s) (OutsideKept s) :=
  Run.ends_of_last (pack_kept c s).1

theorem pack_slots (c : Code) (h : SlotsWritten s) : (pack c s).Ends SlotsWritten (fun _ => True) :=
  extractWhile_ends sbPut_slots (fun _ ht => ht) 8 3 (s := shiftIn c s) h

theorem pack_packer (hp : PackerRegs s) (hr : s.runningBits.toNat ≤ 12) (hc : c.toNat < 2 ^ s.runningBits.toNat) :
    (pack c s).Ends PackerRegs (fun _ => True) := by
  cases hrun : pack c s with
  | done t => exact (pack_spec hp hr hc hrun).1
  | raised k t => trivial

theorem Grounded.of_kept (h : Grounded s) (hk : OutsideKept s t) (hm : Memory.wf t) : Grounded t :=
  h.congr hm hk.control hk.host

theorem SessionRegs.of_kept (h : SessionRegs s) (hk : OutsideKept s t) : SessionRegs t := by
  obtain ⟨hb, hclear, heof, _⟩ := hk.session
  exact h.congr hb hclear heof

theorem WidthRegs.of_kept (h : WidthRegs s) (hk : OutsideKept s t) : WidthRegs t := by
  obtain ⟨hb, _, heof, _⟩ := hk.session
  exact h.congr hk.width hb heof hk.params

theorem DictEntries.of_kept (h : DictEntries s) (hk : OutsideKept s t) : DictEntries t := by
  obtain ⟨hb, _, heof, _⟩ := hk.session
  exact h.congr hk.dict hk.runningCode hb heof

/-- A code that fits the width is packed into an open session and leaves one (R160, R164). -/
theorem pack_session (h : Session s) (hr : s.runningBits.toNat ≤ 12) (hc : c.toNat < 2 ^ s.runningBits.toNat) :
    (pack c s).Ends (fun t => Session t ∧ OutsideKept s t) Grounded := by
  have hparts := ((pack_outside c s).and (pack_canonical c h.grounded.memory)).and
    ((pack_slots c h.slots).and (pack_packer h.packer hr hc))
  refine hparts.mono ?_ ?_
  · rintro t ⟨⟨hk, hm⟩, hslots, hpacker⟩
    refine ⟨⟨h.grounded.of_kept hk hm, ?_, h.regs.of_kept hk, hpacker, hslots⟩, hk⟩
    rw [hk.fsm]
    exact h.alive
  · rintro t ⟨⟨hk, hm⟩, _⟩
    exact h.grounded.of_kept hk hm

/-- One extraction of fewer than eight bits empties the accumulator (R163). -/
theorem extractByte_drains (hp : PackerRegs s) :
    (extractByte s).Ends (fun t => t.shiftBits = 0 ∧ t.shiftValue = 0) (fun _ => True) := by
  cases hrun : extractByte s with
  | raised k t => trivial
  | done t =>
    obtain ⟨u, hu, ht⟩ := andThen_eq_done.mp hrun
    obtain ⟨hv, hb⟩ : samePacker s u := by
      have hk := (sbPut_kept (lowByte s) s).2.1
      rwa [hu] at hk
    cases ht
    have hbits := hp.bitsHigh
    have hsmall : s.shiftValue.toNat < 2 ^ 8 :=
      Nat.lt_of_lt_of_le hp.valueFits (Nat.pow_le_pow_right (by decide) (by omega))
    refine ⟨?_, BitVec.eq_of_toNat_eq ?_⟩
    · rw [shiftOut_shiftBits, hb, Nat.sub_eq_zero_of_le (by omega)]
      rfl
    · rw [shiftOut_shiftValue, hv, BitVec.toNat_ushiftRight, Nat.shiftRight_eq_div_pow, Nat.div_eq_of_lt hsmall]
      rfl

theorem extractWhile_stop {least : Nat} (turns : Nat) (h : s.shiftBits.toNat < least) :
    extractWhile least turns s = .done s := by
  cases turns with
  | zero => rfl
  | succ n => rw [extractWhile, if_neg (by omega)]

/-- PK.FLUSH's loop leaves no bit in the accumulator (R163). -/
theorem extractWhile_drains (turns : Nat) (hp : PackerRegs s) :
    (extractWhile 1 (turns + 1) s).Ends (fun t => t.shiftBits = 0 ∧ t.shiftValue = 0) (fun _ => True) := by
  rw [extractWhile]
  split
  · refine (extractByte_drains hp).andThen fun t ht => ?_
    rw [extractWhile_stop turns (by simp [ht.1])]
    exact ht
  · have hbits : s.shiftBits.toNat = 0 := by omega
    have hvalue := hp.valueFits
    rw [hbits] at hvalue
    exact ⟨BitVec.eq_of_toNat_eq (by simpa using hbits), BitVec.eq_of_toNat_eq (by simpa using hvalue)⟩

/-- What a flushed session holds: nothing in the accumulator, nothing in the buffer (R63, R163). -/
structure Flushed (s t : State) : Prop where
  kept : OutsideKept s t
  memory : Memory.wf t
  accEmpty : t.shiftValue = 0 ∧ t.shiftBits = 0
  bufferEmpty : t.sbCount = 0

theorem flush_session (h : Session s) : (flush s).Ends (Flushed s) Grounded := by
  have hloop := ((Run.ends_of_last (extractWhile_kept 1 4 s).1).and (extractWhile_drains 3 h.packer)).mono
    (Q := fun t => OutsideKept s t ∧ t.shiftBits = 0 ∧ t.shiftValue = 0) (F := OutsideKept s)
    (fun _ ht => ht) (fun _ ht => ht.1)
  have hkept : (flush s).Ends
      (fun t => OutsideKept s t ∧ (t.shiftValue = 0 ∧ t.shiftBits = 0) ∧ t.sbCount = 0) (OutsideKept s) := by
    refine hloop.andThen fun u ⟨hk, hb, hv⟩ => (sbTerminate_ends u).mono ?_ (fun t ht => hk.trans ht)
    rintro t ⟨⟨hk', hv', hb'⟩, h0⟩
    exact ⟨hk.trans hk', ⟨hv'.trans hv, hb'.trans hb⟩, h0⟩
  refine (hkept.and (flush_canonical h.grounded.memory)).mono ?_ ?_
  · rintro t ⟨⟨hk, hacc, h0⟩, hm⟩
    exact ⟨hk, hm, hacc, h0⟩
  · rintro t ⟨hk, hm⟩
    exact h.grounded.of_kept hk hm

end Packer

/-! ### The width controller -/

section Width

variable {s t : State}

theorem setWidth_session (n : Nat) (h : Session s) : Session (setWidth n s) :=
  h.congr h.grounded.memory ⟨rfl, rfl⟩ ⟨rfl, rfl, rfl⟩ rfl rfl rfl ⟨rfl, rfl⟩ rfl rfl

/-- WC.GROW writes no item but the width and its threshold (R153). -/
theorem wcGrow_session (h : Session s) : Session (wcGrow s) := by
  rcases wcGrow_cases s with ⟨_, _, hg⟩ | ⟨_, hg⟩ <;> rw [hg]
  · exact setWidth_session _ h
  · exact h

/-- Everything of a session but its widths is as before WC.GROW. -/
theorem wcGrow_kept (s : State) :
    sameControl s (wcGrow s) ∧ sameSession s (wcGrow s) ∧ (wcGrow s).runningCode = s.runningCode ∧
      (wcGrow s).dict = s.dict ∧ sameHost s (wcGrow s) := by
  rcases wcGrow_cases s with ⟨_, _, hg⟩ | ⟨_, hg⟩ <;> rw [hg] <;>
    exact ⟨⟨rfl, rfl⟩, ⟨rfl, rfl, rfl, rfl, rfl⟩, rfl, rfl, ⟨rfl, rfl, rfl⟩⟩

theorem WidthRegs.bits_le (h : WidthRegs s) (hp : s.params.Valid) : s.runningBits.toNat ≤ 12 :=
  h.bitsHigh.trans (lzBits_le hp)

/-- Every code assigned so far fits the width. -/
theorem WidthRegs.code_fits (h : WidthRegs s) {n : Nat} (hn : n < s.runningCode.toNat) : n < 2 ^ s.runningBits.toNat :=
  h.threshold ▸ Nat.lt_of_lt_of_le hn h.codeFits

/-- The growth check leaves a width of at most twelve bits, and none that a code before it does not fit. -/
theorem WidthRegs.grown_fits (h : WidthRegs s) (hp : s.params.Valid) :
    (wcGrow s).runningBits.toNat ≤ 12 ∧
      ∀ n, n < s.runningCode.toNat → n < 2 ^ (wcGrow s).runningBits.toNat := by
  have hlz := lzBits_le hp
  rcases wcGrow_cases s with ⟨_, hbits, hg⟩ | ⟨_, hg⟩ <;> rw [hg]
  · rw [(setWidth_spec (by omega) s).1]
    exact ⟨by omega, fun n hn => Nat.lt_of_lt_of_le (h.code_fits hn) (Nat.pow_le_pow_right (by decide) (by omega))⟩
  · exact ⟨h.bitsHigh.trans hlz, fun n hn => h.code_fits hn⟩

theorem SessionRegs.special_lt (h : SessionRegs s) (hw : WidthRegs s) :
    s.clearCode.toNat < s.runningCode.toNat ∧ s.eofCode.toNat < s.runningCode.toNat := by
  have hclear := h.clearIs
  have heof := h.eofIs
  have hcode := hw.codeLow
  omega

/-- WC.INIT establishes the width invariant (R155). -/
theorem wcInit_widthRegs (hp : s.params.Valid) (hr : SessionRegs s) : WidthRegs (wcInit s) := by
  obtain ⟨hcap, hlow, hlz, _⟩ := hp
  have hbpp := hr.bppHigh
  have hpow : 2 ^ s.bpp.toNat ≤ 2 ^ 8 := Nat.pow_le_pow_right (by decide) hbpp
  have hpow2 : 2 ^ 2 ≤ 2 ^ s.bpp.toNat := Nat.pow_le_pow_right (by decide) hr.bppLow
  have hnine : 8 < s.params.lzBits :=
    (Nat.pow_lt_pow_iff_right (a := 2) (by decide)).mp (by simp only [Config.bppMax] at hcap; omega)
  obtain ⟨hcode, hbits, hmax⟩ := wcInit_spec (s := s) (by omega)
  have heof := hr.eofIs
  constructor
  case codeLow => exact hcode.ge
  case codeHigh =>
    rw [hcode]
    simp only [Config.bppMax] at hcap
    exact (show s.eofCode.toNat + 1 ≤ s.params.lzMaxCode by omega)
  case threshold => rw [hmax, hbits]
  case bitsLow => exact hbits.ge
  case bitsHigh =>
    rw [hbits]
    exact (show s.bpp.toNat + 1 ≤ s.params.lzBits by omega)
  case codeFits =>
    rw [hcode, hmax, Nat.pow_succ]
    omega
  case bitsLeast => exact .inl hbits

/-- Below capacity the growth check and the next code keep the width invariant (R155). -/
theorem wcAdvance_wcGrow_widthRegs (hp : s.params.Valid) (h : WidthRegs s)
    (hroom : s.runningCode.toNat < s.params.lzMaxCode) : WidthRegs (wcAdvance (wcGrow s)) := by
  have hsize := lzMaxCode_le hp
  obtain ⟨_, hlow, hlz, _⟩ := hp
  obtain ⟨h1, h2, h3, h4, h5, h6, h7⟩ := h
  rcases wcGrow_cases s with ⟨hmax, hbits, hg⟩ | ⟨hno, hg⟩ <;> rw [hg]
  · obtain ⟨hb, hm⟩ := setWidth_spec (n := s.runningBits.toNat + 1) (by omega) s
    have hcode : (wcAdvance (setWidth (s.runningBits.toNat + 1) s)).runningCode.toNat = s.runningCode.toNat + 1 :=
      wcAdvance_spec (s := setWidth (s.runningBits.toNat + 1) s) (by rw [setWidth_runningCode]; omega)
    have hone := Nat.one_le_two_pow (n := s.runningBits.toNat)
    constructor <;>
      simp only [wcAdvance_runningBits, wcAdvance_maxCode1, wcAdvance_bpp, wcAdvance_eofCode, wcAdvance_params,
        setWidth_bpp, setWidth_eofCode, setWidth_params, hcode, hb, hm, Nat.pow_succ, Nat.add_sub_cancel] <;> omega
  · have hcode := wcAdvance_spec (s := s) (by omega)
    have hless : s.runningCode.toNat < s.maxCode1.toNat := by
      by_contra hge
      have hbits : s.params.lzBits ≤ s.runningBits.toNat := by omega
      have := Nat.pow_le_pow_right (n := 2) (by decide) hbits
      omega
    constructor <;>
      simp only [wcAdvance_runningBits, wcAdvance_maxCode1, wcAdvance_bpp, wcAdvance_eofCode, wcAdvance_params,
        hcode] <;> omega

end Width

end Sys2Proof.Machine
end

section
/-!
PROOF. Every step keeps the legal states (spec/10_state.md R22 to R29, spec/41_code_emitter.md R135): the three commands
on a session, from what its operations keep.
-/

namespace Sys2Proof.Machine

section Commands

variable {s t : State}

/-! ### The dictionary -/

/-- A write to an absent address only adds its entry. -/
theorem storePut_perm {β : Type} {m : Store β} {a : Nat} (h : storeGet m a = none) (v : β) :
    (storePut m a v).Perm ((a, v) :: m) := by
  induction m with
  | nil => exact .refl _
  | cons e rest ih =>
    obtain ⟨k, w⟩ := e
    have hka : k ≠ a := storeGet_eq_none.mp h (k, w) List.mem_cons_self
    rw [storeGet, if_neg hka] at h
    rw [storePut]
    split_ifs with hlt heq
    · exact .refl _
    · exact absurd heq.symm hka
    · exact ((ih h).cons (k, w)).trans (.swap _ _ _)

theorem nextCode_toNat (h : s.runningCode.toNat < 4096) : (nextCode s).toNat = s.runningCode.toNat :=
  fit_toNat _ h

/-- The state in which an ordinary miss has inserted `key` under the next code (R130). -/
abbrev inserted (key : Key) (s : State) : State := wcAdvance (dictPut key (nextCode s) s)

/-- The entry a miss inserts under a key of a data code and a pixel keeps the dictionary of the session (R103, R130). -/
theorem insert_entries {code : Code} {pixel : Byte} (h : DictEntries s)
    (hlow : s.eofCode.toNat + 1 ≤ s.runningCode.toNat) (hroom : s.runningCode.toNat < 4096)
    (hmiss : dictRead s (keyOf code pixel) = none) (hpixel : pixel.toNat < 2 ^ s.bpp.toNat)
    (hdata : isDataCode s code.toNat) (hold : code.toNat < s.runningCode.toNat) :
    DictEntries (inserted (keyOf code pixel) s) := by
  have hperm := storePut_perm hmiss (nextCode s)
  have hcode := nextCode_toNat hroom
  have hnext : (inserted (keyOf code pixel) s).runningCode.toNat = s.runningCode.toNat + 1 :=
    wcAdvance_spec (s := dictPut (keyOf code pixel) (nextCode s) s) hroom
  have hkey := keyOf_toNat code pixel
  have hp := pixel.isLt
  constructor
  case size =>
    rw [hnext]
    show (storePut s.dict _ _).length = s.runningCode.toNat + 1 - (s.eofCode.toNat + 1)
    rw [hperm.length_eq, List.length_cons, h.size]
    omega
  case codes =>
    intro e he
    rw [hnext]
    show s.eofCode.toNat + 1 ≤ e.2.toNat ∧ _
    rcases List.mem_cons.mp (hperm.mem_iff.mp he) with rfl | he
    · exact ⟨hcode.symm ▸ hlow, hcode.symm ▸ Nat.lt_succ_self _⟩
    · obtain ⟨hmin, hmax⟩ := h.codes e he
      exact ⟨hmin, Nat.lt_succ_of_lt hmax⟩
  case codesOnce =>
    show (storePut s.dict _ _).Pairwise _
    rw [hperm.pairwise_iff fun {_ _} hne => hne.symm]
    refine List.pairwise_cons.mpr ⟨fun e he heq => ?_, h.codesOnce⟩
    have hlt := (h.codes e he).2
    rw [← heq, hcode] at hlt
    exact Nat.lt_irrefl _ hlt
  case keys =>
    intro e he
    rcases List.mem_cons.mp (hperm.mem_iff.mp he) with rfl | he
    · show (keyOf code pixel).toNat % 256 < 2 ^ s.bpp.toNat ∧ isDataCode s ((keyOf code pixel).toNat / 256) ∧
        (keyOf code pixel).toNat / 256 < (nextCode s).toNat
      have hmod : (keyOf code pixel).toNat % 256 = pixel.toNat := by omega
      have hdiv : (keyOf code pixel).toNat / 256 = code.toNat := by omega
      rw [hmod, hdiv, hcode]
      exact ⟨hpixel, hdata, hold⟩
    · exact h.keys e he

theorem entries_nil (hd : s.dict = []) (hc : s.runningCode.toNat = s.eofCode.toNat + 1) : DictEntries s :=
  ⟨by simp [hd, hc], by simp [hd], by simp [hd], by simp [hd]⟩

/-- A masked pixel is a data code below every code a session assigns (R105). -/
theorem pixelCode_held {p : Byte} (hp : p.toNat < 2 ^ s.bpp.toNat) (hpre : s.pendingPrefix = pixelCode p)
    (hr : SessionRegs s) (hw : s.eofCode.toNat + 1 ≤ s.runningCode.toNat) : PrefixHeld s := by
  have hcode : s.pendingPrefix.toNat = p.toNat := by rw [hpre, pixelCode_toNat]
  have heof := hr.eofIs
  exact ⟨.inl (hcode ▸ hp), by omega⟩

/-! ### BEGIN -/

/-- BEGIN's registers of a legal request are those of a session (R21, R123). -/
theorem openSession_regs {req : BitVec 4} (hreq : req.toNat ≤ 8) (quota : BitVec 32) (s : State) :
    SessionRegs (openSession req quota s) := by
  have hb := effectiveBpp_toNat req
  have hpow : 2 ^ (effectiveBpp req).toNat ≤ 2 ^ 8 := Nat.pow_le_pow_right (by decide) (by omega)
  refine ⟨?_, ?_, ?_, ?_⟩
  · show 2 ≤ (effectiveBpp req).toNat
    omega
  · show (effectiveBpp req).toNat ≤ 8
    omega
  · show (BitVec.ofNat 9 (2 ^ (effectiveBpp req).toNat)).toNat = 2 ^ (effectiveBpp req).toNat
    rw [BitVec.toNat_ofNat, Nat.mod_eq_of_lt (by omega)]
  · show (BitVec.ofNat 9 (2 ^ (effectiveBpp req).toNat + 1)).toNat = 2 ^ (effectiveBpp req).toNat + 1
    rw [BitVec.toNat_ofNat, Nat.mod_eq_of_lt (by omega)]

theorem loadedQuota_eq (hp : s.params.Valid) (quota : BitVec 32) : loadedQuota quota s = quota := by
  obtain ⟨_, _, _, hq⟩ := hp
  have hle : (2 : Nat) ^ 32 ≤ 2 ^ s.params.quotaBits := Nat.pow_le_pow_right (by decide) hq
  rw [loadedQuota, if_pos (Nat.lt_of_lt_of_le quota.isLt hle)]

/-- BEGIN opens a session: accumulator, buffer and dictionary empty, widths at their start (R123). -/
theorem openSession_session {req : BitVec 4} (hreq : req.toNat ≤ 8) (quota : BitVec 32) (h : Grounded s)
    (hc : s.cause = none) :
    Session (openSession req quota s) ∧ WidthRegs (openSession req quota s) ∧
      DictEntries (openSession req quota s) := by
  have hregs := openSession_regs hreq quota s
  have hwidth : WidthRegs (openSession req quota s) :=
    (wcInit_widthRegs (s := bufEmpty (forgetPrefix (loadSession req quota s))) h.params
      (hregs.congr rfl rfl rfl)).congr ⟨rfl, rfl, rfl⟩ rfl rfl rfl
  refine ⟨⟨⟨h.noRequest, h.params, openSession_wf req quota h.memory, ?_⟩, .inl rfl, hregs, ⟨?_, ?_⟩, ?_⟩, hwidth, ?_⟩
  · have hcause : (openSession req quota s).cause = none := hc
    have hfsm : (openSession req quota s).fsm = .awaitFirst := rfl
    simp [hcause, hfsm]
  · show (0 : BitVec 5).toNat ≤ 7
    decide
  · show (0 : BitVec 19).toNat < 2 ^ (0 : BitVec 5).toNat
    decide
  · exact bufEmpty_slots (forgetPrefix (loadSession req quota s))
  · refine entries_nil rfl ?_
    exact (wcInit_spec (s := bufEmpty (forgetPrefix (loadSession req quota s)))
      (show (openSession req quota s).bpp.toNat ≤ 11 from Nat.le_trans hregs.bppHigh (by decide))).1

theorem beginSession_ends {req : BitVec 4} {quota : BitVec 32} (hreq : req.toNat ≤ 8) (hq : quota ≠ 0)
    (h : Grounded s) (hc : s.cause = none) : (beginSession req quota s).Ends Inv Grounded := by
  obtain ⟨hsession, hwidth, hentries⟩ := openSession_session hreq quota h hc
  have hfits := hwidth.code_fits (hsession.regs.special_lt hwidth).1
  refine (pack_session hsession (hwidth.bits_le h.params) (by rwa [specialCode_toNat])).andThen fun t ⟨ht, hk⟩ => ?_
  have hquota : t.quota = quota := hk.quota.trans (loadedQuota_eq (s := s) h.params quota)
  have hfsm : t.fsm = .awaitFirst := hk.fsm
  refine (ht.inv (hwidth.of_kept hk) (hentries.of_kept hk) ?_ fun hm => ?_).respondOk
  · rw [hquota]
    exact Nat.pos_of_ne_zero fun h0 => hq (BitVec.eq_of_toNat_eq h0)
  · rw [hfsm] at hm
    cases hm

theorem execBegin_inv (req : BitVec 4) (quota : BitVec 32) (h : Inv s) :
    ∃ t, execBegin req quota s = .next t ∧ Inv t := by
  have hraised := h.grounded.inv_raiseError .stateMisuse
  unfold execBegin
  split_ifs with hf hreq hq
  · exact ⟨_, rfl, hraised⟩
  · exact ⟨_, rfl, hraised⟩
  · exact ⟨_, rfl, hraised⟩
  · have hcause : s.cause = none := h.cause_none fun hp => hf (by simp [hp])
    exact ⟨_, rfl, finish_of_ends (beginSession_ends (Nat.le_of_not_lt hreq) hq h.grounded hcause) (fun _ ht => ht)
      fun k _ ht => ht.inv_raiseError k⟩

/-! ### PUSH -/

/-- What a data code leaves of a session between two codes: all but the width, and that wide enough for every code
assigned before and ready for the next (R155, R161). -/
structure DataEmitted (s t : State) : Prop where
  session : Session t
  control : sameControl s t
  regs : sameSession s t
  code : t.runningCode = s.runningCode
  dict : t.dict = s.dict
  params : t.params = s.params
  bits : t.runningBits.toNat ≤ 12
  fits : ∀ n, n < s.runningCode.toNat → n < 2 ^ t.runningBits.toNat
  advanced : s.runningCode.toNat < s.params.lzMaxCode → WidthRegs (wcAdvance t)

theorem emitData_session (h : Session s) (hw : WidthRegs s) {c : Code} (hc : c.toNat < s.runningCode.toNat) :
    (emitData c s).Ends (DataEmitted s) Grounded := by
  refine (pack_session h (hw.bits_le h.grounded.params) (hw.code_fits hc)).andThen fun u ⟨hu, hk⟩ => ?_
  obtain ⟨⟨hf, hcause⟩, ⟨hb, hclear, heof, hq, hp⟩, hcode, hdict, _, _, hparams⟩ := wcGrow_kept u
  obtain ⟨kf, kcause⟩ := hk.control
  obtain ⟨kb, kclear, keof, kq, kp⟩ := hk.session
  have hwu := hw.of_kept hk
  obtain ⟨hbits, hfits⟩ := hwu.grown_fits hu.grounded.params
  have kcode : u.runningCode = s.runningCode := hk.runningCode
  have kparams : u.params = s.params := hk.params
  exact ⟨wcGrow_session hu, ⟨hf.trans kf, hcause.trans kcause⟩,
    ⟨hb.trans kb, hclear.trans kclear, heof.trans keof, hq.trans kq, hp.trans kp⟩, hcode.trans kcode,
    hdict.trans hk.dict, hparams.trans kparams, hbits, kcode ▸ hfits,
    fun hroom => wcAdvance_wcGrow_widthRegs hu.grounded.params hwu (by rwa [kcode, kparams])⟩

theorem DataEmitted.special_fits (ht : DataEmitted s t) (hr : SessionRegs s) (hw : WidthRegs s) :
    (specialCode t.clearCode).toNat < 2 ^ t.runningBits.toNat ∧
      (specialCode t.eofCode).toNat < 2 ^ t.runningBits.toNat := by
  obtain ⟨_, hclear, heof, _⟩ := ht.regs
  obtain ⟨hlt, hlt'⟩ := hr.special_lt hw
  rw [specialCode_toNat, specialCode_toNat, hclear, heof]
  exact ⟨ht.fits _ hlt, ht.fits _ hlt'⟩

/-- A dictionary that a data code finds unsaturated is below its capacity (R129). -/
theorem DataEmitted.below_capacity (ht : DataEmitted s t) (hw : WidthRegs s) (hsat : ¬ isSaturated t = true) :
    s.runningCode.toNat < s.params.lzMaxCode := by
  refine Nat.lt_of_le_of_ne hw.codeHigh ?_
  simpa [isSaturated, ht.code, ht.params] using hsat

theorem setPrefix_session (c : Code) (h : Session s) : Session (setPrefix c s) :=
  h.congr h.grounded.memory ⟨rfl, rfl⟩ ⟨rfl, rfl, rfl⟩ rfl rfl rfl ⟨rfl, rfl⟩ rfl rfl

/-- A clear restarts widths and dictionary behind the session's registers (R129). -/
theorem clear_matching {p : Byte} (h : Session s) (hm : s.fsm = .matching) (hp : p.toNat < 2 ^ s.bpp.toNat)
    (hpre : s.pendingPrefix = pixelCode p) : Matching (dictClearAll (wcInit s)) := by
  have hwidth := wcInit_widthRegs h.grounded.params h.regs
  have hsession : Session (dictClearAll (wcInit s)) :=
    h.congr (dictClearAll_wf (s := wcInit s) h.grounded.memory) ⟨rfl, rfl⟩ ⟨rfl, rfl, rfl⟩ rfl rfl rfl ⟨rfl, rfl⟩ rfl
      rfl
  exact ⟨hsession, hm, hwidth.congr ⟨rfl, rfl, rfl⟩ rfl rfl rfl,
    entries_nil rfl (wcInit_spec (Nat.le_trans h.regs.bppHigh (by decide))).1,
    pixelCode_held hp hpre hsession.regs hwidth.codeLow⟩

theorem pushSaturated_matching {p : Byte} (h : Session s) (hm : s.fsm = .matching) (hp : p.toNat < 2 ^ s.bpp.toNat)
    (hpre : s.pendingPrefix = pixelCode p) (hbits : s.runningBits.toNat ≤ 12)
    (hclear : (specialCode s.clearCode).toNat < 2 ^ s.runningBits.toNat) :
    (pushSaturated s).Ends Matching Grounded := by
  refine (pack_session h hbits hclear).andThen fun u ⟨hu, hk⟩ => ?_
  obtain ⟨hb, _, _, _, hpu⟩ := hk.session
  exact clear_matching hu (hk.fsm.trans hm) (hb ▸ hp) (hpu.trans hpre)

/-- Within its preconditions an insert never stops (R103). -/
theorem pushInsert_ok {key : Key} (hmiss : dictRead s key = none) (hroom : s.dict.length < s.params.lzMaxCode) :
    pushInsert key s = .ok (.done (inserted key s)) := by
  have hwrite : dictWrite key (nextCode s) s = .ok (dictPut key (nextCode s) s) := by
    rcases dictWrite_cases key (nextCode s) s with ⟨_, _, hw⟩ | ⟨_, hfull, _⟩ | ⟨hhit, _⟩
    · exact hw
    · exact absurd hroom (Nat.not_lt.mpr hfull)
    · exact absurd hmiss hhit
  rw [pushInsert, hwrite]

theorem inserted_wf (key : Key) (h : Memory.wf s) : Memory.wf (inserted key s) := by
  refine ⟨⟨storePut_wf h.1.1 _ _, fun e he => ?_⟩, h.2⟩
  rcases mem_storePut he with rfl | he
  · exact key.isLt
  · exact h.1.2 e he

/-- A key that missed before the data code is still absent after it, and below capacity there is room (R104). -/
theorem DataEmitted.insert_room {key : Key} (ht : DataEmitted s t) (c : Code) (hw : WidthRegs s) (hd : DictEntries s)
    (hmiss : dictRead s key = none) :
    dictRead (setPrefix c t) key = none ∧ (setPrefix c t).dict.length < (setPrefix c t).params.lzMaxCode := by
  have hlow := hw.codeLow
  have hhigh := hw.codeHigh
  refine ⟨?_, ?_⟩
  · show storeGet t.dict _ = none
    rw [ht.dict]
    exact hmiss
  · show t.dict.length < t.params.lzMaxCode
    rw [ht.dict, ht.params, hd.size]
    omega

/-- A miss below capacity inserts the key it formed before the emit (R130). -/
theorem inserted_matching {p : Byte} (h : Matching s) (hp : p.toNat < 2 ^ s.bpp.toNat)
    (hmiss : dictRead s (keyOf s.pendingPrefix p) = none) (hroom : s.runningCode.toNat < s.params.lzMaxCode)
    (ht : DataEmitted s t) : Matching (inserted (keyOf s.pendingPrefix p) (setPrefix (pixelCode p) t)) := by
  obtain ⟨hb, _, heof, _, _⟩ := ht.regs
  have hcode := ht.code
  have hlow : s.eofCode.toNat + 1 ≤ s.runningCode.toNat := h.width.codeLow
  have hsize := lzMaxCode_le h.session.grounded.params
  have hpixel : p.toNat < 2 ^ t.bpp.toNat := by rw [hb]; exact hp
  have hsession : Session (inserted (keyOf s.pendingPrefix p) (setPrefix (pixelCode p) t)) :=
    ht.session.congr (inserted_wf (s := setPrefix (pixelCode p) t) _ ht.session.grounded.memory) ⟨rfl, rfl⟩
      ⟨rfl, rfl, rfl⟩ rfl rfl rfl ⟨rfl, rfl⟩ rfl rfl
  have hwidth : WidthRegs (inserted (keyOf s.pendingPrefix p) (setPrefix (pixelCode p) t)) :=
    (ht.advanced hroom).congr ⟨rfl, rfl, rfl⟩ rfl rfl rfl
  have hentries : DictEntries (setPrefix (pixelCode p) t) := h.entries.congr ht.dict hcode hb heof
  refine ⟨hsession, ht.control.1.trans h.matching, hwidth, ?_, pixelCode_held hpixel rfl hsession.regs hwidth.codeLow⟩
  refine insert_entries hentries ?_ ?_ (ht.insert_room (pixelCode p) h.width h.entries hmiss).1 hpixel ?_ ?_
  · show t.eofCode.toNat + 1 ≤ t.runningCode.toNat
    rw [heof, hcode]
    exact hlow
  · show t.runningCode.toNat < 4096
    rw [hcode]
    omega
  · show isDataCode t s.pendingPrefix.toNat
    simpa only [isDataCode, hb, heof] using h.held.dataCode
  · show s.pendingPrefix.toNat < t.runningCode.toNat
    rw [hcode]
    exact h.held.assigned

theorem pushMiss_of_raised {p : Byte} {k : ErrorKind} (h : emitData s.pendingPrefix s = .raised k t) :
    pushMiss p s = .ok (.raised k t) := by
  rw [pushMiss, h]

theorem pushMiss_of_done {p : Byte} (h : emitData s.pendingPrefix s = .done t) :
    pushMiss p s = if isSaturated t then .ok (pushSaturated (setPrefix (pixelCode p) t))
      else pushInsert (keyOf s.pendingPrefix p) (setPrefix (pixelCode p) t) := by
  rw [pushMiss, h]

/-- A miss emits its data code, then clears a saturated dictionary or inserts; it never stops (R128). -/
theorem pushMiss_matching {p : Byte} (h : Matching s) (hp : p.toNat < 2 ^ s.bpp.toNat)
    (hmiss : dictRead s (keyOf s.pendingPrefix p) = none) :
    ∃ r, pushMiss p s = .ok r ∧ r.Ends Matching Grounded := by
  have hdata := emitData_session h.session h.width h.held.assigned
  cases hrun : emitData s.pendingPrefix s with
  | raised k t =>
    rw [hrun] at hdata
    exact ⟨_, pushMiss_of_raised hrun, hdata⟩
  | done t =>
    rw [hrun] at hdata
    have ht : DataEmitted s t := hdata
    obtain ⟨hb, _⟩ := ht.regs
    rw [pushMiss_of_done hrun]
    split_ifs with hsat
    · have hpixel : p.toNat < 2 ^ t.bpp.toNat := by rw [hb]; exact hp
      exact ⟨_, rfl, pushSaturated_matching (setPrefix_session _ ht.session) (ht.control.1.trans h.matching) hpixel
        rfl ht.bits (ht.special_fits h.session.regs h.width).1⟩
    · obtain ⟨habsent, hroom⟩ := ht.insert_room (pixelCode p) h.width h.entries hmiss
      exact ⟨_, pushInsert_ok habsent hroom,
        inserted_matching h hp hmiss (ht.below_capacity h.width hsat) ht⟩

/-- A hit extends the match by a code of the dictionary (R127). -/
theorem setPrefix_matching {c : Code} {key : Key} (h : Matching s) (hhit : dictRead s key = some c) :
    Matching (setPrefix c s) := by
  obtain ⟨hmin, hmax⟩ := h.entries.codes _ (mem_of_storeGet hhit)
  exact ⟨setPrefix_session c h.session, h.matching, h.width.congr ⟨rfl, rfl, rfl⟩ rfl rfl rfl,
    h.entries.congr rfl rfl rfl rfl, ⟨.inr hmin, hmax⟩⟩

theorem pushFirst_matching {p : Byte} (h : Session s) (hw : WidthRegs s) (hd : DictEntries s)
    (hp : p.toNat < 2 ^ s.bpp.toNat) : Matching (pushFirst p s) := by
  have hsession : Session (pushFirst p s) :=
    ⟨⟨h.grounded.noRequest, h.grounded.params, h.grounded.memory, by simp [h.cause_none]⟩, .inr rfl,
      h.regs.congr rfl rfl rfl, h.packer.congr ⟨rfl, rfl⟩, h.slots⟩
  exact ⟨hsession, rfl, hw.congr ⟨rfl, rfl, rfl⟩ rfl rfl rfl, hd.congr rfl rfl rfl rfl,
    pixelCode_held hp rfl hsession.regs hw.codeLow⟩

/-- A pixel's own processing never stops and leaves a session with a match running, or raises (R104, R125). -/
theorem pushPixel_matching {p : Byte} (h : Session s) (hw : WidthRegs s) (hd : DictEntries s)
    (hheld : s.fsm = .matching → PrefixHeld s) (hp : p.toNat < 2 ^ s.bpp.toNat) :
    ∃ r, pushPixel p s = .ok r ∧ r.Ends Matching Grounded := by
  rcases h.alive with hf | hf
  · exact ⟨.done (pushFirst p s), by rw [pushPixel, if_pos hf], pushFirst_matching h hw hd hp⟩
  · have hm : Matching s := ⟨h, hf, hw, hd, hheld hf⟩
    rw [pushPixel, if_neg (by simp [hf]), pushMatching]
    cases hread : dictRead s (keyOf s.pendingPrefix p) with
    | some c => exact ⟨_, rfl, setPrefix_matching hm hread⟩
    | none => exact pushMiss_matching hm hp hread

/-- What the spent quota leaves is a completed session (R63, R131). -/
theorem retire_inv (h : Session s) (hf : Flushed s t) (hq : s.quota = 0) : Inv (retire t) := by
  have hcause : t.cause = none := hf.kept.cause.trans h.cause_none
  have hgrounded := h.grounded.of_kept hf.kept hf.memory
  have hregs := h.regs.of_kept hf.kept
  have hquota : t.quota = 0 := hf.kept.quota.trans hq
  exact ⟨hgrounded.noRequest, hgrounded.params, forgetDict_wf (s := forgetPrefix { t with fsm := .flushed }) hf.memory,
    by simp [hcause], by simp, by simp, fun _ => ⟨hregs.congr rfl rfl rfl, hquota, hf.accEmpty, hf.bufferEmpty⟩⟩

theorem terminate_ends (h : Matching s) : (terminate s).Ends Inv Grounded := by
  unfold terminate
  split
  · next hq =>
    refine (emitData_session h.session h.width h.held.assigned).andThen fun t ht => ?_
    obtain ⟨_, _, _, hquota, _⟩ := ht.regs
    have hfit := (ht.special_fits h.session.regs h.width).2
    refine (pack_session ht.session ht.bits hfit).andThen fun u ⟨hu, hk⟩ => ?_
    have hspent : u.quota = 0 := hk.quota.trans (hquota.trans hq)
    exact (flush_session hu).andThen fun v hv => retire_inv hu hv hspent
  · next hq => exact h.inv hq

theorem pushEnd_inv {r : Run} (h : r.Ends Matching Grounded) : Inv (pushEnd r) :=
  finish_of_ends ((h.andThen fun _ ht => terminate_ends ht).andThen fun _ ht => ht.respondOk) (fun _ ht => ht)
    fun k _ ht => ht.inv_raiseError k

/-- Counting a pixel leaves all of an open session but the quota (R125). -/
theorem countPixel_session (h : Session s) : Session (countPixel s) :=
  h.congr h.grounded.memory ⟨rfl, rfl⟩ ⟨rfl, rfl, rfl⟩ rfl rfl rfl ⟨rfl, rfl⟩ rfl rfl

theorem countPixel_matching (h : Matching s) : Matching (countPixel s) :=
  ⟨countPixel_session h.session, h.matching, h.width.congr ⟨rfl, rfl, rfl⟩ rfl rfl rfl, h.entries.congr rfl rfl rfl rfl,
    h.held.congr rfl rfl rfl rfl⟩

theorem maskPixel_lt (bpp : BitVec 4) (pixel : Byte) : (maskPixel bpp pixel).toNat < 2 ^ bpp.toNat :=
  maskPixel_toNat bpp pixel ▸ Nat.mod_lt _ (Nat.two_pow_pos _)

theorem pushPixel_ends (pixel : Byte) (h : Inv s) (ho : s.fsm = .awaitFirst ∨ s.fsm = .matching) :
    ∃ r, pushPixel (maskPixel s.bpp pixel) (countPixel s) = .ok r ∧ r.Ends Matching Grounded := by
  obtain ⟨_, _, hw, _, _, hd⟩ := h.opened ho
  exact pushPixel_matching (countPixel_session (h.session ho)) (hw.congr ⟨rfl, rfl, rfl⟩ rfl rfl rfl)
    (hd.congr rfl rfl rfl rfl) (fun hm => (h.held hm).congr rfl rfl rfl rfl) (maskPixel_lt s.bpp pixel)

theorem execPush_inv (pixel : Byte) (h : Inv s) : ∃ t, execPush pixel s = .next t ∧ Inv t := by
  unfold execPush
  split_ifs with hclosed hdone
  · exact ⟨_, rfl, h.grounded.inv_raiseError _⟩
  · exact ⟨_, rfl, h.grounded.inv_raiseError _⟩
  · have ho : s.fsm = .awaitFirst ∨ s.fsm = .matching := by
      cases hf : s.fsm <;> simp [hf] at hclosed hdone ⊢
    obtain ⟨r, hr, hends⟩ := pushPixel_ends pixel h ho
    exact ⟨_, by rw [pushSession, hr], pushEnd_inv hends⟩

/-! ### The step -/

/-- A command word is one of the host's commands or illegal (R88, R89). -/
theorem readCommand_cases (w : BitVec 40) :
    (∃ i, readCommand w = .run i ∧ isCommand i = true) ∨ readCommand w = .illegalCommand := by
  unfold readCommand
  rcases decodeCw_cases w with ⟨_, _, hd⟩ | ⟨_, hd⟩ | hd | ⟨_, hd⟩ <;> rw [hd]
  · exact .inl ⟨_, rfl, rfl⟩
  · exact .inl ⟨_, rfl, rfl⟩
  · exact .inl ⟨_, rfl, rfl⟩
  · exact .inr rfl

theorem step_of_hardReset {rest : List HostInput} (hr : s.request = none) (hi : s.hostInput = .hardReset :: rest) :
    step s = .next (resetCore { s with hostInput := rest }) := by
  simp [step, fetch, hr, hi]

theorem step_of_run {w : BitVec 40} {rest : List HostInput} {i : Instr} (hr : s.request = none)
    (hi : s.hostInput = .command w :: rest) (hw : readCommand w = .run i) :
    step s = exec i { s with hostInput := rest } :=
  step_of_fetch_run (by rw [fetch_of_command hr hi, hw])

theorem step_of_illegal {w : BitVec 40} {rest : List HostInput} (hr : s.request = none)
    (hi : s.hostInput = .command w :: rest) (hw : readCommand w = .illegalCommand) :
    step s = .next (raiseError .stateMisuse { s with hostInput := rest }) := by
  simp [step, fetch_of_command hr hi, hw, illegalCommand]

/-- Every command of the host is answered, and in a legal state (R121). -/
theorem exec_inv {i : Instr} (hi : isCommand i = true) (h : Inv s) : ∃ t, exec i s = .next t ∧ Inv t := by
  cases i with
  | begin req quota => exact execBegin_inv req quota h
  | push pixel => exact execPush_inv pixel h
  | reset => exact ⟨_, rfl, h.grounded.inv_resetCore.respondOk⟩
  | _ => cases hi

/-- Every step from a legal state is answered, and in a legal state. -/
theorem step_inv (h : Inv s) : ∃ t, step s = .next t ∧ Inv t := by
  have hr := h.noRequest
  match hi : s.hostInput with
  | [] => exact ⟨s, step_of_fetch_nothing (fetch_of_idle hr hi), h⟩
  | .hardReset :: rest => exact ⟨_, step_of_hardReset hr hi, (h.hostInput rest).grounded.inv_resetCore⟩
  | .command w :: rest =>
    rcases readCommand_cases w with ⟨i, hw, hc⟩ | hw
    · rw [step_of_run hr hi hw]
      exact exec_inv hc (h.hostInput rest)
    · exact ⟨_, step_of_illegal hr hi hw, (h.hostInput rest).grounded.inv_raiseError .stateMisuse⟩

end Commands

/-- Settles O29: the next state of a step from a legal state is the legal one it always has. -/
theorem stepKeepsLegalStates : Obligations.StepKeepsLegalStates := by
  intro s t h hstep
  obtain ⟨u, hu, hinv⟩ := step_inv h
  rw [hstep] at hu
  cases hu
  exact hinv

end Sys2Proof.Machine
end

section
/-!
PROOF. No unspecified item shows (spec/10_state.md R25, R28 to R30, R34, spec/60_exceptions.md R206): two sessions that
agree on what the spec specifies run in step, operation by operation.
-/

namespace Sys2Proof.Machine

/-! ### Two runs side by side -/

/-- Both operations complete, in states that `R` relates, or both raise the same error, in states that agree. -/
def Run.Both (R : State → State → Prop) : Run → Run → Prop
  | .done s, .done t => R s t
  | .raised k s, .raised l t => k = l ∧ Agree s t
  | .done _, .raised _ _ => False
  | .raised _ _, .done _ => False

section Both

variable {R S : State → State → Prop} {P E : State → Prop} {r r' : Run}

theorem Run.Both.cases (h : r.Both R r') :
    (∃ s t, r = .done s ∧ r' = .done t ∧ R s t) ∨ ∃ k s t, r = .raised k s ∧ r' = .raised k t ∧ Agree s t := by
  cases r <;> cases r'
  · exact .inl ⟨_, _, rfl, rfl, h⟩
  · exact h.elim
  · exact h.elim
  · obtain ⟨rfl, hst⟩ := h
    exact .inr ⟨_, _, _, rfl, rfl, hst⟩

theorem Run.Both.mono (h : r.Both R r') (hRS : ∀ s t, R s t → S s t) : r.Both S r' := by
  rcases h.cases with ⟨s, t, rfl, rfl, hst⟩ | ⟨k, s, t, rfl, rfl, hst⟩
  · exact hRS s t hst
  · exact ⟨rfl, hst⟩

theorem Run.Both.andThen {f g : State → Run} (h : r.Both R r') (hf : ∀ s t, R s t → (f s).Both S (g t)) :
    (r.andThen f).Both S (r'.andThen g) := by
  rcases h.cases with ⟨s, t, rfl, rfl, hst⟩ | ⟨k, s, t, rfl, rfl, hst⟩
  · exact hf s t hst
  · exact ⟨rfl, hst⟩

/-- What is known of the first run where it completes may be used of the pair. -/
theorem Run.Both.and_ends (h : r.Both R r') (hr : r.Ends P E) : r.Both (fun s t => R s t ∧ P s) r' := by
  rcases h.cases with ⟨s, t, rfl, rfl, hst⟩ | ⟨k, s, t, rfl, rfl, hst⟩
  · exact ⟨hst, hr⟩
  · exact ⟨rfl, hst⟩

end Both

section Agreement

variable {s t : State}

/-! ### Errors and responses -/

theorem Agree.showsBpp_eq (h : Agree s t) : showsBpp s = showsBpp t := by simp only [showsBpp, h.fsm]

/-- After an error only control state, output and response are specified, and all of them follow from what agreed
(R206). -/
theorem raiseError_agree (k : ErrorKind) (h : Agree s t) : Agree (raiseError k s) (raiseError k t) := by
  obtain ⟨hf, hc, hr⟩ := raiseError_control k s
  obtain ⟨hf', hc', hr'⟩ := raiseError_control k t
  obtain ⟨ht, _, hs, hi, _, hp, _⟩ := raiseError_outside k s
  obtain ⟨ht', _, hs', hi', _, hp', _⟩ := raiseError_outside k t
  refine ⟨hf.trans hf'.symm, ?_, hr.trans hr'.symm, ?_, ?_, ?_, ?_, ?_, ?_, ?_⟩
  · rw [hc, hc', h.fsm, h.cause]
  · rw [ht, ht', h.trace]
  · rw [hs, hs', h.script]
  · rw [hi, hi', h.input]
  · rw [hp, hp', h.params]
  all_goals simp [showsBpp, hf]

theorem finish_agree {r r' : Run} (h : r.Both Agree r') : Agree (finish r) (finish r') := by
  rcases h.cases with ⟨s, t, rfl, rfl, hst⟩ | ⟨k, s, t, rfl, rfl, hst⟩
  · exact hst
  · exact raiseError_agree k hst

/-- The response shows nothing but `fsm` and, in a session, `bpp` (R82). -/
theorem respondOk_agree (h : Agree s t) : Agree (respondOk s) (respondOk t) := by
  have hword : responseWord s none = responseWord t none := by
    have hdone : isDone s = isDone t := by simp only [isDone, h.fsm]
    rw [responseWord, responseWord, hdone, ← h.showsBpp_eq]
    split_ifs with hb
    · rw [(h.session hb).1]
    · rfl
  exact { h with response := congrArg some hword }

theorem resetCore_agree (h : Agree s t) : Agree (resetCore s) (resetCore t) :=
  ⟨rfl, rfl, h.response, h.trace, h.script, h.input, h.params, by simp [showsBpp, resetCore], by simp [resetCore],
    by simp [resetCore]⟩

/-! ### Open sessions that agree -/

/-- The sink's answers given in advance last for `n` more bytes and the two writes of SB.TERMINATE: at most one of so
few bytes finds the buffer full. -/
abbrev Supply (n : Nat) (s : State) : Prop :=
  n ≤ 254 ∧ (3 ≤ s.sinkScript.length ∨ 2 ≤ s.sinkScript.length ∧ s.sbCount.toNat + n ≤ 255)

/-- Two open sessions that agree, with answers for `n` more bytes. -/
structure Twins (n : Nat) (s t : State) : Prop where
  agree : Agree s t
  alive : s.fsm = .awaitFirst ∨ s.fsm = .matching
  supply : Supply n s

theorem Supply.le {m n : Nat} (h : Supply n s) (hm : m ≤ n) : Supply m s := by
  obtain ⟨hfew, hanswers⟩ := h
  exact ⟨by omega, by omega⟩

theorem Twins.le {m n : Nat} (h : Twins n s t) (hm : m ≤ n) : Twins m s t := ⟨h.agree, h.alive, h.supply.le hm⟩

theorem Supply.script_ne {n : Nat} (h : Supply n s) : s.sinkScript ≠ [] := by
  obtain ⟨_, hanswers⟩ := h
  rw [← List.length_pos_iff]
  omega

theorem showsBpp_of_open (h : s.fsm = .awaitFirst ∨ s.fsm = .matching) : showsBpp s = true := by
  rcases h with h | h <;> simp [showsBpp, h]

/-! ### The sink and the framer -/

theorem nextAnswer_agree (h : Agree s t) (hn : s.sinkScript ≠ []) : nextAnswer s = nextAnswer t := by
  obtain ⟨a, rest, hs⟩ := List.exists_cons_of_ne_nil hn
  rw [nextAnswer_cons hs, nextAnswer_cons (h.script ▸ hs)]

theorem sinkAnswered_agree (bytes : List Byte) (h : Agree s t) (hn : s.sinkScript ≠ []) :
    Agree (sinkAnswered bytes s) (sinkAnswered bytes t) :=
  { h with
    trace := by rw [sinkAnswered_trace, sinkAnswered_trace, h.trace, nextAnswer_agree h hn]
    script := congrArg List.tail h.script }

theorem sinkWrite_both (bytes : List Byte) (h : Agree s t) (hn : s.sinkScript ≠ []) :
    (sinkWrite bytes s).Both (fun u v => Agree u v ∧ u = sinkAnswered bytes s) (sinkWrite bytes t) := by
  have hans := nextAnswer_agree h hn
  have hsent := sinkAnswered_agree bytes h hn
  rcases sinkWrite_cases bytes s with ⟨ha, hw⟩ | ⟨ha, hw⟩ <;> rw [hw]
  · rw [sinkWrite_ok (hans ▸ ha)]
    exact ⟨hsent, rfl⟩
  · rw [sinkWrite_fail (hans ▸ ha)]
    exact ⟨rfl, hsent⟩

theorem heldBlock_agree (h : Agree s t) (ho : s.fsm = .awaitFirst ∨ s.fsm = .matching) :
    heldBlock s = heldBlock t := by
  obtain ⟨_, _, hcount, hheld, _⟩ := h.opened ho
  rw [heldBlock_eq, heldBlock_eq, hcount, hheld]

theorem bufEmpty_agree (h : Agree s t) : Agree (bufEmpty s) (bufEmpty t) :=
  { h with
    opened := fun ho => by
      obtain ⟨hw, hp, _, _, hd⟩ := h.opened ho
      exact ⟨hw, hp, rfl, by rw [heldBytes_bufEmpty, heldBytes_bufEmpty], hd⟩ }

/-- A full block goes to the sink from both sessions, and empties both buffers (R181, R182). -/
theorem writeBlock_both (h : Agree s t) (ho : s.fsm = .awaitFirst ∨ s.fsm = .matching) (hn : s.sinkScript ≠ []) :
    ((sinkWrite (heldBlock s) s).andThen fun u => .done (bufEmpty u)).Both
      (fun u v => Agree u v ∧ u = bufEmpty (sinkAnswered (heldBlock s) s))
      ((sinkWrite (heldBlock t) t).andThen fun v => .done (bufEmpty v)) := by
  rw [← heldBlock_agree h ho]
  exact (sinkWrite_both _ h hn).andThen fun u v ⟨huv, hu⟩ => ⟨bufEmpty_agree huv, congrArg bufEmpty hu⟩

theorem putByte_twins {n : Nat} (b : Byte) (h : Twins (n + 1) s t) (hc : s.sbCount.toNat < 255) :
    Twins n (putByte b s) (putByte b t) := by
  obtain ⟨hw, hp, hcount, hheld, hd⟩ := h.agree.opened h.alive
  have hc' : t.sbCount.toNat < 255 := hcount ▸ hc
  have hbytes : heldBytes (putByte b s) = heldBytes (putByte b t) := by
    rw [putByte_held hc, putByte_held hc', hheld]
  obtain ⟨hnext, heq⟩ := putByte_spec hc b
  obtain ⟨_, heq'⟩ := putByte_spec hc' b
  obtain ⟨hfew, hanswers⟩ := h.supply
  refine ⟨?_, ?_, ⟨by omega, ?_⟩⟩
  · rw [heq, heq'] at hbytes ⊢
    exact { h.agree with opened := fun _ => ⟨hw, hp, congrArg (· + 1) hcount, hbytes, hd⟩ }
  · rw [heq]
    exact h.alive
  · rw [hnext, heq]
    show 3 ≤ s.sinkScript.length ∨ 2 ≤ s.sinkScript.length ∧ _
    omega

theorem sbPut_twins {n : Nat} (b : Byte) (h : Twins (n + 1) s t) : (sbPut b s).Both (Twins n) (sbPut b t) := by
  obtain ⟨_, _, hcount, _⟩ := h.agree.opened h.alive
  have hlt := s.sbCount.isLt
  unfold sbPut putRoom
  rw [← hcount]
  split_ifs with hfull
  · refine (writeBlock_both h.agree h.alive h.supply.script_ne).andThen fun u v ⟨huv, hu⟩ =>
      putByte_twins b ⟨huv, ?_, ?_⟩ ?_
    · rw [hu]
      exact h.alive
    · obtain ⟨hfew, hanswers⟩ := h.supply
      simp only [Config.sbMax] at hfull
      refine ⟨hfew, .inr ?_⟩
      rw [hu]
      show 2 ≤ s.sinkScript.tail.length ∧ (0 : Byte).toNat + (n + 1) ≤ 255
      rw [List.length_tail]
      exact ⟨by omega, by simpa using Nat.le_succ_of_le hfew⟩
    · rw [hu]
      show (0 : Byte).toNat < 255
      decide
  · simp only [Config.sbMax] at hfull
    exact putByte_twins b h (by omega)

theorem sbTerminate_twins (h : Twins 0 s t) :
    (sbTerminate s).Both (fun u v => Agree u v ∧ (u.fsm = .awaitFirst ∨ u.fsm = .matching)) (sbTerminate t) := by
  obtain ⟨_, _, hcount, _⟩ := h.agree.opened h.alive
  have hend : ∀ u v : State, Agree u v → u.fsm = s.fsm → u.sinkScript ≠ [] → (sinkWrite [0x00] u).Both
      (fun u v => Agree u v ∧ (u.fsm = .awaitFirst ∨ u.fsm = .matching)) (sinkWrite [0x00] v) := by
    intro u v huv hf hn
    refine (sinkWrite_both _ huv hn).mono fun u' v' ⟨huv', hu'⟩ => ⟨huv', ?_⟩
    rw [hu', sinkAnswered_fsm, hf]
    exact h.alive
  unfold sbTerminate flushPartial
  rw [← hcount]
  split_ifs with hempty
  · exact hend s t h.agree rfl h.supply.script_ne
  · refine (writeBlock_both h.agree h.alive h.supply.script_ne).andThen fun u v ⟨huv, hu⟩ => hend u v huv ?_ ?_
    · rw [hu]
      rfl
    · rw [hu]
      show s.sinkScript.tail ≠ []
      rw [← List.length_pos_iff, List.length_tail]
      obtain ⟨_, hanswers⟩ := h.supply
      omega

/-! ### The packer and the width controller -/

theorem shiftOut_twins {n : Nat} (h : Twins n s t) : Twins n (shiftOut s) (shiftOut t) := by
  obtain ⟨hw, ⟨hv, hb⟩, hcount, hheld, hd⟩ := h.agree.opened h.alive
  refine ⟨{ h.agree with opened := fun _ => ⟨hw, ⟨?_, ?_⟩, hcount, hheld, hd⟩ }, h.alive, h.supply⟩
  · rw [shiftOut_shiftValue, shiftOut_shiftValue, hv]
  · rw [shiftOut_shiftBits, shiftOut_shiftBits, hb]

theorem extractByte_twins {n : Nat} (h : Twins (n + 1) s t) : (extractByte s).Both (Twins n) (extractByte t) := by
  obtain ⟨_, ⟨hv, _⟩, _⟩ := h.agree.opened h.alive
  have hlow : lowByte s = lowByte t := by rw [lowByte, lowByte, hv]
  rw [extractByte, extractByte, ← hlow]
  exact (sbPut_twins _ h).andThen fun _ _ huv => shiftOut_twins huv

theorem extractWhile_twins {n turns : Nat} (least : Nat) (h : Twins (n + turns) s t) :
    (extractWhile least turns s).Both (Twins n) (extractWhile least turns t) := by
  induction turns generalizing s t with
  | zero => exact h
  | succ k ih =>
    obtain ⟨_, ⟨_, hb⟩, _⟩ := h.agree.opened h.alive
    rw [extractWhile, extractWhile, ← hb]
    split_ifs
    · exact (extractByte_twins h).andThen fun _ _ huv => ih huv
    · exact h.le (by omega)

/-- A code that fits the width enters both accumulators exactly, so that they go on agreeing (R160, R164). -/
theorem shiftIn_twins {n : Nat} {c : Code} (h : Twins n s t) (hp : PackerRegs s) (hr : s.runningBits.toNat ≤ 12)
    (hc : c.toNat < 2 ^ s.runningBits.toNat) : Twins n (shiftIn c s) (shiftIn c t) := by
  obtain ⟨hw, ⟨hv, hb⟩, hcount, hheld, hd⟩ := h.agree.opened h.alive
  have hbits : t.runningBits = s.runningBits := by
    obtain ⟨_, hbits, _⟩ := hw
    exact hbits
  obtain ⟨hb1, hv1, _⟩ := shiftIn_spec hp hr hc
  obtain ⟨hb2, hv2, _⟩ := shiftIn_spec (c := c) (hp.congr ⟨hv, hb⟩) (hbits ▸ hr) (hbits ▸ hc)
  rw [hb, hbits] at hb2
  rw [hv, hb] at hv2
  refine ⟨{ h.agree with opened := fun _ => ⟨hw, ⟨?_, ?_⟩, hcount, hheld, hd⟩ }, h.alive, h.supply⟩
  · exact BitVec.eq_of_toNat_eq (hv2.trans hv1.symm)
  · exact BitVec.eq_of_toNat_eq (hb2.trans hb1.symm)

theorem pack_twins {n : Nat} {c : Code} (h : Twins (n + 3) s t) (hp : PackerRegs s) (hr : s.runningBits.toNat ≤ 12)
    (hc : c.toNat < 2 ^ s.runningBits.toNat) : (pack c s).Both (Twins n) (pack c t) :=
  extractWhile_twins 8 (shiftIn_twins h hp hr hc)

/-- A width of at most twelve bits is the same in both sessions, whatever free values they hold. -/
theorem setWidth_twins {n w : Nat} (h : Twins n s t) (hw : w ≤ 12) : Twins n (setWidth w s) (setWidth w t) := by
  obtain ⟨⟨hcode, _, _⟩, hp, hcount, hheld, hd⟩ := h.agree.opened h.alive
  obtain ⟨hb, hm⟩ := setWidth_spec hw s
  obtain ⟨hb', hm'⟩ := setWidth_spec hw t
  exact ⟨{ h.agree with opened := fun _ => ⟨⟨hcode, BitVec.eq_of_toNat_eq (hb'.trans hb.symm),
    BitVec.eq_of_toNat_eq (hm'.trans hm.symm)⟩, hp, hcount, hheld, hd⟩ }, h.alive, h.supply⟩

theorem wcGrow_twins {n : Nat} (h : Twins n s t) (hz : s.params.lzBits ≤ 12) : Twins n (wcGrow s) (wcGrow t) := by
  obtain ⟨⟨hcode, hbits, hmax⟩, _⟩ := h.agree.opened h.alive
  rw [wcGrow, wcGrow, hcode, hbits, hmax, ← h.agree.params]
  split_ifs with hgrow
  · exact setWidth_twins h (by omega)
  · exact h

theorem emitData_twins {n : Nat} {c : Code} (h : Twins (n + 3) s t) (hs : Session s) (hw : WidthRegs s)
    (hc : c.toNat < s.runningCode.toNat) : (emitData c s).Both (Twins n) (emitData c t) := by
  have hbits := hw.bits_le hs.grounded.params
  have hpack := (pack_twins h hs.packer hbits (hw.code_fits hc)).and_ends (pack_outside c s)
  refine hpack.andThen fun u v ⟨huv, hk⟩ => wcGrow_twins huv ?_
  rw [hk.params]
  exact lzBits_le hs.grounded.params

theorem flush_twins (h : Twins 4 s t) :
    (flush s).Both (fun u v => Agree u v ∧ (u.fsm = .awaitFirst ∨ u.fsm = .matching)) (flush t) :=
  (extractWhile_twins (n := 0) 1 h).andThen fun _ _ huv => sbTerminate_twins huv

/-- Where the two codes that start a session agree, WC.INIT makes the widths agree (R151). -/
theorem wcInit_width (hb : s.bpp = t.bpp) (he : s.eofCode = t.eofCode) (hlow : s.bpp.toNat ≤ 11) :
    sameWidth (wcInit s) (wcInit t) := by
  obtain ⟨h1, h2, h3⟩ := wcInit_spec hlow
  obtain ⟨g1, g2, g3⟩ := wcInit_spec (s := t) (hb ▸ hlow)
  rw [← he] at g1
  rw [← hb] at g2 g3
  exact ⟨BitVec.eq_of_toNat_eq (g1.trans h1.symm), BitVec.eq_of_toNat_eq (g2.trans h2.symm),
    BitVec.eq_of_toNat_eq (g3.trans h3.symm)⟩

/-! ### BEGIN -/

/-- BEGIN writes every item it or a later PUSH reads; what it leaves is unspecified in an opened session (R123). -/
theorem openSession_twins {req : BitVec 4} (hreq : req.toNat ≤ 8) (quota : BitVec 32) (h : Agree s t)
    (hp : s.params.Valid) (hn : 3 ≤ s.sinkScript.length) :
    Twins 16 (openSession req quota s) (openSession req quota t) := by
  have hquota : loadedQuota quota s = loadedQuota quota t := by
    rw [loadedQuota_eq hp, loadedQuota_eq (h.params ▸ hp)]
  have hlow : (effectiveBpp req).toNat ≤ 11 := by
    rw [effectiveBpp_toNat]
    omega
  have hheld : ∀ x : State, heldBytes (openSession req quota x) = [] := fun x =>
    heldBytes_bufEmpty (forgetPrefix (loadSession req quota x))
  refine ⟨⟨rfl, h.cause, h.response, h.trace, h.script, h.input, h.params,
    fun _ => ⟨rfl, rfl, rfl, hquota⟩, fun _ => ⟨?_, ⟨rfl, rfl⟩, rfl, (hheld s).trans (hheld t).symm, rfl⟩,
    fun hm => ?_⟩, .inl rfl, by decide, .inl hn⟩
  · exact wcInit_width (s := bufEmpty (forgetPrefix (loadSession req quota s)))
      (t := bufEmpty (forgetPrefix (loadSession req quota t))) rfl rfl hlow
  · cases hm

theorem execBegin_agree (req : BitVec 4) (quota : BitVec 32) (hs : Inv s) (h : Agree s t)
    (hn : 3 ≤ s.sinkScript.length) :
    ∃ s' t', execBegin req quota s = .next s' ∧ execBegin req quota t = .next t' ∧ Agree s' t' := by
  have hraised := raiseError_agree .stateMisuse h
  unfold execBegin
  rw [← h.fsm]
  split_ifs with hf hreq hq
  · exact ⟨_, _, rfl, rfl, hraised⟩
  · exact ⟨_, _, rfl, rfl, hraised⟩
  · exact ⟨_, _, rfl, rfl, hraised⟩
  · have hreq8 : req.toNat ≤ 8 := Nat.le_of_not_lt hreq
    obtain ⟨hopen, hwidth, _⟩ := openSession_session hreq8 quota hs.grounded
      (hs.cause_none fun hp => hf (by simp [hp]))
    have hfits := hwidth.code_fits (hopen.regs.special_lt hwidth).1
    have hpack := pack_twins (n := 13) (c := specialCode (openSession req quota s).clearCode)
      (openSession_twins hreq8 quota h hs.params hn) hopen.packer (hwidth.bits_le hs.params)
      (by rwa [specialCode_toNat])
    exact ⟨_, _, rfl, rfl, finish_agree (hpack.andThen fun _ _ huv => respondOk_agree huv.agree)⟩

/-! ### PUSH -/

theorem setPrefix_twins {n : Nat} (c : Code) (h : Twins n s t) : Twins n (setPrefix c s) (setPrefix c t) :=
  ⟨{ h.agree with held := fun _ => rfl }, h.alive, h.supply⟩

theorem pushFirst_twins {n : Nat} (p : Byte) (h : Twins n s t) : Twins n (pushFirst p s) (pushFirst p t) :=
  ⟨{ h.agree with
      fsm := rfl
      session := fun _ => h.agree.session (showsBpp_of_open h.alive)
      opened := fun _ => h.agree.opened h.alive
      held := fun _ => rfl }, .inr rfl, h.supply⟩

theorem clear_twins {n : Nat} (h : Twins n s t) (hlow : s.bpp.toNat ≤ 11) :
    Twins n (dictClearAll (wcInit s)) (dictClearAll (wcInit t)) := by
  obtain ⟨_, hp, hcount, hheld, _⟩ := h.agree.opened h.alive
  obtain ⟨hb, _, he, _⟩ := h.agree.session (showsBpp_of_open h.alive)
  exact ⟨{ h.agree with opened := fun _ => ⟨wcInit_width hb he hlow, hp, hcount, hheld, rfl⟩ }, h.alive, h.supply⟩

theorem pushSaturated_twins {n : Nat} (h : Twins (n + 3) s t) (hs : Session s) (hbits : s.runningBits.toNat ≤ 12)
    (hfit : (specialCode s.clearCode).toNat < 2 ^ s.runningBits.toNat) :
    (pushSaturated s).Both (Twins n) (pushSaturated t) := by
  obtain ⟨_, hclear, _⟩ := h.agree.session (showsBpp_of_open h.alive)
  have hpack := (pack_twins h hs.packer hbits hfit).and_ends (pack_outside _ s)
  rw [pushSaturated, pushSaturated, ← hclear]
  refine hpack.andThen fun u v ⟨huv, hk⟩ => clear_twins huv ?_
  obtain ⟨hb, _⟩ := hk.session
  rw [hb]
  exact Nat.le_trans hs.regs.bppHigh (by decide)

/-- The next code and its successor are the same in both sessions below capacity (R130). -/
theorem inserted_twins {n : Nat} (key : Key) (h : Twins n s t) (hroom : s.runningCode.toNat < 4096) :
    Twins n (inserted key s) (inserted key t) := by
  obtain ⟨⟨hcode, hbits, hmax⟩, hp, hcount, hheld, hd⟩ := h.agree.opened h.alive
  have hroom' : t.runningCode.toNat < 4096 := hcode ▸ hroom
  have hnext : nextCode s = nextCode t :=
    BitVec.eq_of_toNat_eq (by rw [nextCode_toNat hroom, nextCode_toNat hroom', hcode])
  have hsucc : (inserted key t).runningCode = (inserted key s).runningCode := by
    refine BitVec.eq_of_toNat_eq ?_
    rw [wcAdvance_spec (s := dictPut key (nextCode t) t) hroom', wcAdvance_spec (s := dictPut key (nextCode s) s) hroom]
    exact congrArg (·.toNat + 1) hcode
  have hdict : (inserted key s).dict = (inserted key t).dict := by
    show storePut s.dict _ _ = storePut t.dict _ _
    rw [hd, hnext]
  exact ⟨{ h.agree with opened := fun _ => ⟨⟨hsucc, hbits, hmax⟩, hp, hcount, hheld, hdict⟩ }, h.alive, h.supply⟩

/-- A data code of two sessions that agree, with what it leaves of the first. -/
theorem dataEmitted_twins {n : Nat} {c : Code} (h : Twins (n + 3) s t) (hs : Session s) (hw : WidthRegs s)
    (hc : c.toNat < s.runningCode.toNat) :
    (emitData c s).Both (fun u v => Twins n u v ∧ DataEmitted s u) (emitData c t) :=
  (emitData_twins h hs hw hc).and_ends (emitData_session hs hw hc)

/-- An ordinary miss inserts in both sessions: the dictionaries are one, and so are key, code and room (R130). -/
theorem pushInsert_twins {n : Nat} {key : Key} (h : Twins n s t) (hmiss : dictRead s key = none)
    (hroom : s.dict.length < s.params.lzMaxCode) (hcode : s.runningCode.toNat < 4096) :
    ∃ r r', pushInsert key s = .ok r ∧ pushInsert key t = .ok r' ∧ r.Both (Twins n) r' := by
  obtain ⟨_, _, _, _, hdict⟩ := h.agree.opened h.alive
  have hmiss' : dictRead t key = none := by
    rw [dictRead, ← hdict]
    exact hmiss
  exact ⟨_, _, pushInsert_ok hmiss hroom, pushInsert_ok hmiss' (hdict ▸ h.agree.params ▸ hroom),
    inserted_twins key h hcode⟩

theorem pushMiss_twins {n : Nat} {p : Byte} (h : Twins (n + 6) s t) (hm : Matching s)
    (hmiss : dictRead s (keyOf s.pendingPrefix p) = none) :
    ∃ r r', pushMiss p s = .ok r ∧ pushMiss p t = .ok r' ∧ r.Both (Twins n) r' := by
  have hpre := h.agree.held hm.matching
  rcases (dataEmitted_twins (n := n + 3) h hm.session hm.width hm.held.assigned).cases with
    ⟨u, v, hrun, hrun', huv, hu⟩ | ⟨k, u, v, hrun, hrun', huv⟩ <;> rw [hpre] at hrun'
  · have hset := setPrefix_twins (pixelCode p) huv
    obtain ⟨⟨hcode, _, _⟩, _⟩ := huv.agree.opened huv.alive
    have hsat : isSaturated v = isSaturated u := by rw [isSaturated, isSaturated, hcode, huv.agree.params]
    rw [pushMiss_of_done hrun, pushMiss_of_done hrun', hsat, ← hpre]
    split_ifs with hfull
    · exact ⟨_, _, rfl, rfl, pushSaturated_twins hset (setPrefix_session _ hu.session) hu.bits
        (hu.special_fits hm.session.regs hm.width).1⟩
    · obtain ⟨habsent, hroom⟩ := hu.insert_room (pixelCode p) hm.width hm.entries hmiss
      have hbelow : u.runningCode.toNat < 4096 := by
        rw [hu.code]
        exact Nat.lt_of_lt_of_le (hu.below_capacity hm.width hfull) (lzMaxCode_le hm.session.grounded.params)
      exact pushInsert_twins (hset.le (by omega)) habsent hroom hbelow
  · exact ⟨_, _, pushMiss_of_raised hrun, pushMiss_of_raised hrun', rfl, huv⟩

theorem pushPixel_twins {n : Nat} {p : Byte} (h : Twins (n + 6) s t) (hm : s.fsm = .matching → Matching s) :
    ∃ r r', pushPixel p s = .ok r ∧ pushPixel p t = .ok r' ∧ r.Both (Twins n) r' := by
  rw [pushPixel, pushPixel, ← h.agree.fsm]
  split_ifs with hfirst
  · exact ⟨_, _, rfl, rfl, (pushFirst_twins p h).le (by omega)⟩
  · have hf : s.fsm = .matching := h.alive.resolve_left hfirst
    obtain ⟨_, _, _, _, hdict⟩ := h.agree.opened h.alive
    have hread : dictRead t (keyOf t.pendingPrefix p) = dictRead s (keyOf s.pendingPrefix p) := by
      rw [dictRead, dictRead, h.agree.held hf, hdict]
    rw [pushMatching, pushMatching, hread]
    cases hhit : dictRead s (keyOf s.pendingPrefix p) with
    | some c => exact ⟨_, _, rfl, rfl, (setPrefix_twins c h).le (by omega)⟩
    | none => exact pushMiss_twins h (hm hf) hhit

theorem retire_agree (h : Agree s t) (ho : s.fsm = .awaitFirst ∨ s.fsm = .matching) : Agree (retire s) (retire t) :=
  { h with
    fsm := rfl
    session := fun _ => h.session (showsBpp_of_open ho)
    opened := by simp
    held := by simp }

theorem terminate_twins (h : Twins 10 s t) (hm : Matching s) : (terminate s).Both Agree (terminate t) := by
  obtain ⟨_, _, _, hquota⟩ := h.agree.session (showsBpp_of_open h.alive)
  rw [terminate, terminate, ← hquota, ← h.agree.held hm.matching]
  split_ifs
  · refine (dataEmitted_twins (n := 7) h hm.session hm.width hm.held.assigned).andThen fun u v ⟨huv, hu⟩ => ?_
    obtain ⟨_, _, heof, _⟩ := huv.agree.session (showsBpp_of_open huv.alive)
    have hfit := (hu.special_fits hm.session.regs hm.width).2
    rw [← heof]
    exact (pack_twins (n := 4) huv hu.session.packer hu.bits hfit).andThen fun _ _ hpacked =>
      (flush_twins hpacked).andThen fun _ _ ⟨hflushed, ho⟩ => retire_agree hflushed ho
  · exact h.agree

theorem countPixel_twins {n : Nat} (h : Twins n s t) (hq : s.quota ≠ 0) : Twins n (countPixel s) (countPixel t) := by
  obtain ⟨hb, hclear, heof, hquota⟩ := h.agree.session (showsBpp_of_open h.alive)
  refine ⟨{ h.agree with session := fun _ => ⟨hb, hclear, heof, ?_⟩ }, h.alive, h.supply⟩
  rw [countPixel_quota, countPixel_quota, if_neg hq, if_neg (hquota ▸ hq), hquota]

theorem execPush_agree (pixel : Byte) (hs : Inv s) (h : Agree s t) (hn : 3 ≤ s.sinkScript.length) :
    ∃ s' t', execPush pixel s = .next s' ∧ execPush pixel t = .next t' ∧ Agree s' t' := by
  unfold execPush
  rw [← h.fsm]
  split_ifs with hclosed hdone
  · exact ⟨_, _, rfl, rfl, raiseError_agree _ h⟩
  · exact ⟨_, _, rfl, rfl, raiseError_agree _ h⟩
  · have ho : s.fsm = .awaitFirst ∨ s.fsm = .matching := by
      cases hf : s.fsm <;> simp [hf] at hclosed hdone ⊢
    have hquota : s.quota ≠ 0 := fun h0 => by simpa [h0] using (hs.opened ho).quotaLeft
    have htwins : Twins 16 (countPixel s) (countPixel t) :=
      countPixel_twins ⟨h, ho, by decide, .inl hn⟩ hquota
    obtain ⟨r, r', hr, hr', hboth⟩ := pushPixel_twins (n := 10) (p := maskPixel s.bpp pixel) htwins
      fun hm => countPixel_matching (hs.matching hm)
    obtain ⟨r₁, hr₁, hends⟩ := pushPixel_ends pixel hs ho
    obtain rfl : r = r₁ := Except.ok.inj (hr.symm.trans hr₁)
    rw [pushSession, pushSession, ← (h.session (showsBpp_of_open ho)).1, hr, hr']
    exact ⟨_, _, rfl, rfl, finish_agree (((hboth.and_ends hends).andThen fun _ _ ⟨huv, hu⟩ =>
      terminate_twins huv hu).andThen fun _ _ huv => respondOk_agree huv)⟩

/-! ### The step -/

theorem exec_agree {i : Instr} (hi : isCommand i = true) (hs : Inv s) (h : Agree s t) (hn : 3 ≤ s.sinkScript.length) :
    ∃ s' t', exec i s = .next s' ∧ exec i t = .next t' ∧ Agree s' t' := by
  cases i with
  | begin req quota => exact execBegin_agree req quota hs h hn
  | push pixel => exact execPush_agree pixel hs h hn
  | reset => exact ⟨_, _, rfl, rfl, respondOk_agree (resetCore_agree h)⟩
  | _ => cases hi

theorem hostInput_agree (h : Agree s t) (rest : List HostInput) :
    Agree { s with hostInput := rest } { t with hostInput := rest } :=
  { h with input := rfl }

end Agreement

/-- Settles O34: both states find the same thing to do, and each thing a host's step can do keeps agreement. -/
theorem unspecifiedStateNeverShows : Obligations.UnspecifiedStateNeverShows := by
  intro s t hs ht h hn
  have hr := hs.noRequest
  have hr' := ht.noRequest
  match hi : s.hostInput with
  | [] =>
    have hi' : t.hostInput = [] := h.input ▸ hi
    exact ⟨s, t, step_of_fetch_nothing (fetch_of_idle hr hi), step_of_fetch_nothing (fetch_of_idle hr' hi'), h⟩
  | .hardReset :: rest =>
    have hi' : t.hostInput = .hardReset :: rest := h.input ▸ hi
    exact ⟨_, _, step_of_hardReset hr hi, step_of_hardReset hr' hi', resetCore_agree (hostInput_agree h rest)⟩
  | .command w :: rest =>
    have hi' : t.hostInput = .command w :: rest := h.input ▸ hi
    have hnext := hostInput_agree h rest
    rcases readCommand_cases w with ⟨i, hw, hc⟩ | hw
    · rw [step_of_run hr hi hw, step_of_run hr' hi' hw]
      exact exec_agree hc (hs.hostInput rest) hnext hn
    · exact ⟨_, _, step_of_illegal hr hi hw, step_of_illegal hr' hi' hw, raiseError_agree .stateMisuse hnext⟩

end Sys2Proof.Machine
end

section
/-!
PROOF. What a step adds to the output (spec/20_memory.md R55, R62): transactions at the end of the trace and bytes at
the end of the stream, the transactions' own bytes wherever every answer was `ok`.
-/

namespace Sys2Proof.Machine

/-- From `s` to `t` the output has only grown, the stream by the bytes of the new transactions if all of these were
acknowledged; parameters and request are as before. -/
structure OutputExtends (s t : State) : Prop where
  output : ∃ w bytes, t.trace = s.trace ++ w ∧ t.stream = s.stream ++ bytes ∧
    ((∀ e ∈ w, e.2 = .ok) → bytes = w.flatMap (fun e => e.1))
  params : t.params = s.params
  request : t.request = s.request

/-- The output has only grown since `s` where the operation ends, completed or not. -/
abbrev Run.ExtendsOutput (r : Run) (s : State) : Prop := r.Ends (OutputExtends s) (OutputExtends s)

section Output

variable {s t u : State}

theorem OutputExtends.of_silent (ht : t.trace = s.trace) (hs : t.stream = s.stream) (hp : t.params = s.params)
    (hr : t.request = s.request) : OutputExtends s t :=
  ⟨⟨[], [], by rw [ht, List.append_nil], by rw [hs, List.append_nil], fun _ => rfl⟩, hp, hr⟩

theorem OutputExtends.refl (s : State) : OutputExtends s s := .of_silent rfl rfl rfl rfl

theorem OutputExtends.trans (h : OutputExtends s t) (g : OutputExtends t u) : OutputExtends s u := by
  obtain ⟨⟨w, bytes, htrace, hstream, hok⟩, hp, hr⟩ := h
  obtain ⟨⟨w', bytes', htrace', hstream', hok'⟩, hp', hr'⟩ := g
  refine ⟨⟨w ++ w', bytes ++ bytes', ?_, ?_, fun hall => ?_⟩, hp'.trans hp, hr'.trans hr⟩
  · rw [htrace', htrace, List.append_assoc]
  · rw [hstream', hstream, List.append_assoc]
  · obtain ⟨hw, hw'⟩ := List.forall_mem_append.mp hall
    rw [hok hw, hok' hw', List.flatMap_append]

theorem Run.ExtendsOutput.andThen {r : Run} {f : State → Run} (h : r.ExtendsOutput s)
    (hf : ∀ t, (f t).ExtendsOutput t) : (r.andThen f).ExtendsOutput s :=
  Run.Ends.andThen h fun t ht => (hf t).mono (fun _ => ht.trans) (fun _ => ht.trans)

/-- What an operation does from a state that has written nothing since `s`. -/
theorem OutputExtends.run {r : Run} (h : OutputExtends s t) (hr : r.ExtendsOutput t) : r.ExtendsOutput s :=
  hr.mono (fun _ => h.trans) (fun _ => h.trans)

theorem raiseError_extends (k : ErrorKind) (s : State) : OutputExtends s (raiseError k s) := by
  obtain ⟨htrace, hstream, _, _, hrequest, hparams, _⟩ := raiseError_outside k s
  exact .of_silent htrace hstream hparams hrequest

theorem finish_extends {r : Run} (h : r.ExtendsOutput s) : OutputExtends s (finish r) :=
  finish_of_ends h (fun _ ht => ht) fun k t ht => ht.trans (raiseError_extends k t)

/-! ### The sink, the framer and the packer -/

/-- The one place where the output grows (R183). -/
theorem sinkAnswered_extends (bytes : List Byte) (s : State) : OutputExtends s (sinkAnswered bytes s) := by
  refine ⟨⟨[(bytes, nextAnswer s)], streamGain s bytes, rfl, rfl, fun hok => ?_⟩, rfl, rfl⟩
  rw [streamGain_ok (hok _ List.mem_cons_self), List.flatMap_singleton]

theorem sinkWrite_extends (bytes : List Byte) (s : State) : (sinkWrite bytes s).ExtendsOutput s := by
  rcases sinkWrite_cases bytes s with ⟨_, hw⟩ | ⟨_, hw⟩ <;> rw [hw] <;> exact sinkAnswered_extends bytes s

theorem bufEmpty_extends (s : State) : OutputExtends s (bufEmpty s) := .of_silent rfl rfl rfl rfl

theorem putByte_extends (b : Byte) (s : State) : OutputExtends s (putByte b s) := by
  unfold putByte bufWrite
  split <;> exact .of_silent rfl rfl rfl rfl

theorem sbPut_extends (b : Byte) (s : State) : (sbPut b s).ExtendsOutput s := by
  have hsent := sinkAnswered_extends (heldBlock s) s
  rcases sbPut_cases b s with ⟨_, hp⟩ | ⟨_, _, hp⟩ | ⟨_, _, hp⟩ <;> rw [hp]
  · exact putByte_extends b s
  · exact (hsent.trans (bufEmpty_extends _)).trans (putByte_extends b _)
  · exact hsent

theorem flushPartial_extends (s : State) : (flushPartial s).ExtendsOutput s := by
  have hsent := sinkAnswered_extends (heldBlock s) s
  rcases flushPartial_cases s with ⟨_, hp⟩ | ⟨_, _, hp⟩ | ⟨_, _, hp⟩ <;> rw [hp]
  · exact .refl s
  · exact hsent.trans (bufEmpty_extends _)
  · exact hsent

theorem sbTerminate_extends (s : State) : (sbTerminate s).ExtendsOutput s :=
  (flushPartial_extends s).andThen (sinkWrite_extends _)

theorem extractWhile_extends (least turns : Nat) (s : State) : (extractWhile least turns s).ExtendsOutput s :=
  extractWhile_ends (fun b t ht => ht.run (sbPut_extends b t))
    (fun _ ht => ht.trans (.of_silent rfl rfl rfl rfl)) least turns (.refl s)

theorem pack_extends (c : Code) (s : State) : (pack c s).ExtendsOutput s :=
  OutputExtends.run (t := shiftIn c s) (.of_silent rfl rfl rfl rfl) (extractWhile_extends 8 3 _)

theorem wcGrow_extends (s : State) : OutputExtends s (wcGrow s) := by
  rcases wcGrow_cases s with ⟨_, _, hg⟩ | ⟨_, hg⟩ <;> rw [hg] <;> exact .of_silent rfl rfl rfl rfl

theorem emitData_extends (c : Code) (s : State) : (emitData c s).ExtendsOutput s :=
  (pack_extends c s).andThen wcGrow_extends

theorem flush_extends (s : State) : (flush s).ExtendsOutput s :=
  (extractWhile_extends 1 4 s).andThen sbTerminate_extends

/-! ### The operations -/

theorem dictWrite_extends {key : Key} {code : Code} (h : dictWrite key code s = .ok t) : OutputExtends s t := by
  rcases dictWrite_cases key code s with ⟨_, _, hw⟩ | ⟨_, _, hw⟩ | ⟨_, hw⟩ <;> rw [hw] at h <;> cases h
  exact .of_silent rfl rfl rfl rfl

theorem execDictInsert_extends {key : Key} {code : Code} (h : execDictInsert key code s = .next t) :
    OutputExtends s t := by
  unfold execDictInsert at h
  split at h
  · cases h
  · next u hw =>
    cases h
    exact (dictWrite_extends hw).trans (.of_silent rfl rfl rfl rfl)

theorem execBegin_extends {req : BitVec 4} {quota : BitVec 32} (h : execBegin req quota s = .next t) :
    OutputExtends s t := by
  have hopen : OutputExtends s (openSession req quota s) := .of_silent rfl rfl rfl rfl
  have hsession : (beginSession req quota s).ExtendsOutput s := by
    unfold beginSession
    exact (hopen.run (pack_extends _ _)).andThen fun _ => OutputExtends.of_silent rfl rfl rfl rfl
  unfold execBegin at h
  split_ifs at h <;> cases h
  · exact raiseError_extends _ s
  · exact raiseError_extends _ s
  · exact raiseError_extends _ s
  · exact finish_extends hsession

theorem pushSaturated_extends (s : State) : (pushSaturated s).ExtendsOutput s :=
  (pack_extends _ s).andThen fun _ => OutputExtends.of_silent rfl rfl rfl rfl

theorem pushInsert_extends {key : Key} {r : Run} (h : pushInsert key s = .ok r) : r.ExtendsOutput s := by
  unfold pushInsert at h
  split at h
  · cases h
  · next u hw =>
    cases h
    exact (dictWrite_extends hw).trans (.of_silent rfl rfl rfl rfl)

theorem pushMiss_extends {p : Byte} {r : Run} (h : pushMiss p s = .ok r) : r.ExtendsOutput s := by
  have hdata := emitData_extends s.pendingPrefix s
  cases hrun : emitData s.pendingPrefix s with
  | raised k u =>
    rw [hrun] at hdata
    rw [pushMiss_of_raised hrun] at h
    cases h
    exact hdata
  | done u =>
    rw [hrun] at hdata
    have hset : OutputExtends s (setPrefix (pixelCode p) u) :=
      OutputExtends.trans hdata (.of_silent rfl rfl rfl rfl)
    rw [pushMiss_of_done hrun] at h
    split_ifs at h
    · cases h
      exact hset.run (pushSaturated_extends _)
    · exact hset.run (pushInsert_extends h)

theorem pushPixel_extends {p : Byte} {r : Run} (h : pushPixel p s = .ok r) : r.ExtendsOutput s := by
  unfold pushPixel pushMatching at h
  split at h
  · cases h
    exact .of_silent rfl rfl rfl rfl
  · split at h
    · cases h
      exact .of_silent rfl rfl rfl rfl
    · exact pushMiss_extends h

theorem terminate_extends (s : State) : (terminate s).ExtendsOutput s := by
  unfold terminate
  split
  · exact (emitData_extends _ s).andThen fun t => (pack_extends _ t).andThen fun u =>
      (flush_extends u).andThen fun _ => OutputExtends.of_silent rfl rfl rfl rfl
  · exact .refl s

theorem execPush_extends {pixel : Byte} (h : execPush pixel s = .next t) : OutputExtends s t := by
  unfold execPush pushSession at h
  split_ifs at h
  · cases h
    exact raiseError_extends _ s
  · cases h
    exact raiseError_extends _ s
  · split at h
    · cases h
    · next r hr =>
      cases h
      have hpixel : r.ExtendsOutput s :=
        OutputExtends.run (t := countPixel s) (.of_silent rfl rfl rfl rfl) (pushPixel_extends hr)
      exact finish_extends ((hpixel.andThen terminate_extends).andThen fun _ => OutputExtends.of_silent rfl rfl rfl rfl)

/-- Every operation, a command's or a port's, only adds to the output. -/
theorem exec_extends {i : Instr} (h : exec i s = .next t) : OutputExtends s t := by
  cases i with
  | begin req quota => exact execBegin_extends h
  | push pixel => exact execPush_extends h
  | dictInsert key code => exact execDictInsert_extends h
  | reset => cases h; exact .of_silent rfl rfl rfl rfl
  | dictLookup key => cases h; exact .of_silent rfl rfl rfl rfl
  | dictClear => cases h; exact .of_silent rfl rfl rfl rfl
  | wcInit => cases h; exact .of_silent rfl rfl rfl rfl
  | wcAdvance => cases h; exact .of_silent rfl rfl rfl rfl
  | wcGrow => cases h; exact wcGrow_extends s
  | pkEmitData code => cases h; exact finish_extends (emitData_extends code s)
  | pkEmitSpecial code => cases h; exact finish_extends (pack_extends code s)
  | pkFlush => cases h; exact finish_extends (flush_extends s)
  | sbPut byte => cases h; exact finish_extends (sbPut_extends byte s)
  | sbTerminate => cases h; exact finish_extends (sbTerminate_extends s)
  | sinkWrite payload => cases h; exact finish_extends (sinkWrite_extends _ s)

/-! ### The step -/

/-- Taking what is next leaves output and parameters alone, and no request. -/
theorem fetch_silent (s : State) :
    (fetch s).2.trace = s.trace ∧ (fetch s).2.stream = s.stream ∧ (fetch s).2.params = s.params ∧
      (fetch s).2.request = none := by
  rcases fetch_cases s with ⟨_, _, hf⟩ | ⟨hr, _, hf⟩ | ⟨_, hr, _, hf⟩ | ⟨_, _, hr, _, hf⟩ <;> rw [hf]
  · exact ⟨rfl, rfl, rfl, rfl⟩
  all_goals exact ⟨rfl, rfl, rfl, hr⟩

/-- A step only adds to the output of the state it has fetched from. -/
theorem step_extends (h : step s = .next t) : OutputExtends (fetch s).2 t := by
  rcases step_cases h with ⟨_, rfl⟩ | ⟨_, rfl⟩ | ⟨i, _, he⟩ | ⟨_, rfl⟩
  · exact .refl _
  · exact .of_silent rfl rfl rfl rfl
  · exact exec_extends he
  · exact raiseError_extends _ _

end Output

/-- Settles O33: if the whole trace is acknowledged, so are the new transactions, and the stream has gained their
bytes. -/
theorem stepKeepsStreamInOrder : Obligations.StepKeepsStreamInOrder := by
  intro s t hfollows hstep hall
  obtain ⟨htrace, hstream, _⟩ := fetch_silent s
  obtain ⟨w, bytes, hw, hbytes, hok⟩ := (step_extends hstep).output
  rw [htrace] at hw
  rw [hstream] at hbytes
  rw [hw] at hall ⊢
  obtain ⟨hold, hnew⟩ := List.forall_mem_append.mp hall
  rw [hbytes, hfollows hold, hok hnew, List.flatMap_append]

/-- Settles O26: what a step adds to the state it has fetched from, which has the output of the state before. -/
theorem outputOnlyGrows : Obligations.OutputOnlyGrows := by
  intro s t hstep
  obtain ⟨htrace, hstream, hparams, hrequest⟩ := fetch_silent s
  obtain ⟨⟨w, bytes, hw, hbytes, _⟩, hp, hr⟩ := step_extends hstep
  exact ⟨⟨w, htrace ▸ hw⟩, ⟨bytes, hstream ▸ hbytes⟩, hp.trans hparams, hr.trans hrequest⟩

end Sys2Proof.Machine
end

section
/-!
PROOF. The stores and the sink as memory (spec/20_memory.md R52 to R55): a read after a write, and what one transaction
leaves behind.
-/

namespace Sys2Proof.Machine

/-- Settles O36: the reads of a store after a write, at the written address and at another. -/
theorem dictReadsSeeWritesAndClears : Obligations.DictReadsSeeWritesAndClears := by
  refine ⟨?write, fun _ _ => rfl⟩
  case write =>
    intro s key code hmiss hroom
    rcases dictWrite_cases key code s with ⟨_, _, hw⟩ | ⟨_, hfull, _⟩ | ⟨hhit, _⟩
    · refine ⟨_, hw, storeGet_put_same _ _ _, fun other hne => ?_⟩
      exact storeGet_put_other _ _ _ fun heq => hne (BitVec.eq_of_toNat_eq heq)
    · exact absurd hroom (Nat.not_lt.mpr hfull)
    · exact absurd hmiss hhit

/-- Settles O37: the reads of the buffer after a write of a payload slot. -/
theorem bufferReadsLastWrite : Obligations.BufferReadsLastWrite :=
  fun s _ b hi => ⟨bufWrite_read_same s hi b, fun _ hj => bufWrite_read_other s hi hj b⟩

theorem frame_of_length {len : Byte} {payload : List Byte} (h : len.toNat = payload.length) :
    frame payload = len :: payload := by
  rw [frame, ← h, BitVec.ofNat_toNat, BitVec.setWidth_eq]

/-- Settles O58: the sink's answer decides whether SINK.WRITE completes or raises, and the error touches neither trace
nor stream. -/
theorem sinkWriteFollowsAnswer : Obligations.SinkWriteFollowsAnswer := by
  intro payload s len rest hlen
  refine ⟨fun hscript => ?ok, fun hscript => ?fail⟩
  case ok =>
    have ha := nextAnswer_cons hscript
    refine ⟨sinkAnswered (len :: payload) s, ?_, ?_, ?_, ?_, ⟨rfl, rfl⟩, ⟨rfl, rfl, rfl, rfl, rfl⟩, ⟨rfl, rfl, rfl⟩,
      ⟨rfl, rfl⟩, fun _ => rfl, fun _ => rfl, ⟨rfl, rfl, rfl⟩, rfl, rfl⟩
    · rw [exec, execSinkWrite, frame_of_length hlen, sinkWrite_ok ha, finish_done]
    · rw [sinkAnswered_stream, streamGain_ok ha]
    · rw [sinkAnswered_trace, ha]
    · rw [sinkAnswered_sinkScript, hscript, List.tail_cons]
  case fail =>
    have ha := nextAnswer_cons hscript
    obtain ⟨htrace, hstream, hanswers, hinput, hrequest, hparams, hreply⟩ :=
      raiseError_outside .sinkWriteFailure (sinkAnswered (len :: payload) s)
    refine ⟨raiseError .sinkWriteFailure (sinkAnswered (len :: payload) s), Config.freeTaken s.draws, ?_,
      raiseError_control .sinkWriteFailure (sinkAnswered (len :: payload) s), ?_, ?_, ?_,
      ⟨hinput, hrequest, hparams⟩, hreply⟩
    · rw [exec, execSinkWrite, frame_of_length hlen, sinkWrite_fail ha, finish_raised]
    · rw [hstream, sinkAnswered_stream, streamGain, ha]
    · rw [htrace, sinkAnswered_trace, ha]
    · rw [hanswers, sinkAnswered_sinkScript, hscript, List.tail_cons]

end Sys2Proof.Machine
end

section
/-!
PROOF. Bits, bytes and blocks (spec/30_encoding.md R57, R72 to R77, R185): how long they are, how a last byte is padded,
and that the reference's bytes and blocks are the only ones of a bit string and of a payload.
-/

namespace Sys2Proof.Machine.Wire

/-! ### Bits and bytes -/

@[simp] theorem bytesBits_length (bytes : List Byte) : (bytesBits bytes).length = 8 * bytes.length := by
  induction bytes with
  | nil => rfl
  | cons b rest ih =>
    rw [bytesBits, List.flatMap_cons, List.length_append, valueBits_length, List.length_cons, ← bytesBits, ih]
    omega

theorem bytesBits_cons (b : Byte) (rest : List Byte) : bytesBits (b :: rest) = valueBits 8 b.toNat ++ bytesBits rest :=
  List.flatMap_cons

theorem valueBits_of_zero (n : Nat) : valueBits n 0 = List.replicate n false := by
  simp [valueBits, List.map_const']

/-- A value of few bits is padded with zero bits (R74). -/
theorem valueBits_pad {k n v : Nat} (hv : v < 2 ^ k) (hk : k ≤ n) :
    valueBits n v = valueBits k v ++ List.replicate (n - k) false := by
  obtain ⟨m, rfl⟩ := Nat.exists_eq_add_of_le hk
  rw [valueBits_split, Nat.mod_eq_of_lt hv, Nat.shiftRight_eq_div_pow, Nat.div_eq_of_lt hv, valueBits_of_zero,
    Nat.add_sub_cancel_left]

/-! ### The value of a byte's bits -/

theorem bitsValue_append_false (bits : List Bool) (n : Nat) :
    bitsValue (bits ++ List.replicate n false) = bitsValue bits := by
  induction bits with
  | nil =>
    induction n with
    | zero => rfl
    | succ n ih => simpa [List.replicate_succ, bitsValue] using ih
  | cons b rest ih => rw [List.cons_append, bitsValue, ih, bitsValue]

theorem valueBits_succ (n v : Nat) : valueBits (n + 1) v = v.testBit 0 :: valueBits n (v / 2) := by
  rw [valueBits, List.range_succ_eq_map, List.map_cons, List.map_map]
  refine congrArg _ (List.map_congr_left fun i _ => ?_)
  exact Nat.testBit_succ v i

theorem bitsValue_valueBits (n v : Nat) : bitsValue (valueBits n v) = v % 2 ^ n := by
  induction n generalizing v with
  | zero => rw [Nat.pow_zero, Nat.mod_one]; rfl
  | succ n ih =>
    rw [valueBits_succ, bitsValue, ih, Nat.testBit_zero, Nat.pow_succ, Nat.mul_comm (2 ^ n) 2, Nat.mod_mul]
    rcases Nat.mod_two_eq_zero_or_one v with h | h <;> simp [h]

/-! ### The bytes of a bit string -/

theorem bitsBytes_length (bits : List Bool) : (bitsBytes bits).length = (bits.length + 7) / 8 := by
  rw [bitsBytes, List.length_map, List.length_range]

/-- The bytes of a bit string that is not empty are its first eight bits and the bytes of the rest (R74). -/
theorem bitsBytes_of_pos {bits : List Bool} (h : 0 < bits.length) :
    bitsBytes bits = BitVec.ofNat 8 (bitsValue (bits.take 8)) :: bitsBytes (bits.drop 8) := by
  have hlen : (bits.length + 7) / 8 = ((bits.drop 8).length + 7) / 8 + 1 := by
    rw [List.length_drop]
    omega
  rw [bitsBytes, hlen, List.range_succ_eq_map, List.map_cons, List.map_map, Nat.mul_zero, List.drop_zero]
  refine congrArg _ (List.map_congr_left fun n _ => ?_)
  simp only [Function.comp_apply, List.drop_drop]
  rw [show 8 * (n + 1) = 8 + 8 * n by omega]

/-- The bytes that spell a bit string and fewer than eight zero bits are its bytes (R74). -/
theorem bitsBytes_unique {bytes : List Byte} {bits : List Bool} {pad : Nat}
    (h : bytesBits bytes = bits ++ List.replicate pad false) (hpad : pad < 8) : bitsBytes bits = bytes := by
  induction bytes generalizing bits pad with
  | nil =>
    obtain ⟨rfl, _⟩ := List.append_eq_nil_iff.mp h.symm
    rfl
  | cons b rest ih =>
    have hlen := congrArg List.length h
    simp only [bytesBits_length, List.length_cons, List.length_append, List.length_replicate] at hlen
    rw [bytesBits_cons] at h
    have hhead : valueBits 8 b.toNat = bits.take 8 ++ List.replicate (8 - bits.length) false := by
      have htake := congrArg (List.take 8) h
      rw [List.take_append_of_le_length (by simp), List.take_of_length_le (by simp), List.take_append,
        List.take_replicate, Nat.min_eq_left (by omega)] at htake
      exact htake
    have htail : bytesBits rest = bits.drop 8 ++ List.replicate (pad - (8 - bits.length)) false := by
      have hdrop := congrArg (List.drop 8) h
      rwa [List.drop_append_of_le_length (by simp), List.drop_of_length_le (by simp), List.nil_append,
        List.drop_append, List.drop_replicate] at hdrop
    have hvalue : bitsValue (bits.take 8) = b.toNat := by
      rw [← bitsValue_append_false _ (8 - bits.length), ← hhead, bitsValue_valueBits, Nat.mod_eq_of_lt b.isLt]
    rw [bitsBytes_of_pos (by omega), hvalue, BitVec.ofNat_toNat, BitVec.setWidth_eq, ih htail (by omega)]

/-! ### Blocks -/

/-- Full blocks and a last one are the SUBBLOCKs of their payload (R77, R185). -/
theorem subblocks_flatten {full : List (List Byte)} {last : List Byte} {turns : Nat}
    (hfull : ∀ b ∈ full, b.length = 255) (hlast : last.length ≤ 255) (hturns : (full.flatten ++ last).length ≤ turns) :
    subblocks turns (full.flatten ++ last) = full.map frame ++ if last = [] then [] else [frame last] := by
  induction full generalizing turns with
  | nil =>
    cases last with
    | nil => cases turns <;> rfl
    | cons x xs =>
      obtain ⟨n, rfl⟩ := Nat.exists_eq_add_of_le' (Nat.le_trans (Nat.succ_pos _) hturns)
      simp only [List.flatten_nil, List.nil_append, subblocks, Config.sbMax, List.take_of_length_le hlast,
        List.drop_of_length_le hlast]
      cases n <;> rfl
  | cons b rest ih =>
    obtain ⟨hb, hrest⟩ := List.forall_mem_cons.mp hfull
    rw [List.flatten_cons, List.append_assoc] at hturns ⊢
    rw [List.length_append, hb] at hturns
    obtain ⟨n, rfl⟩ := Nat.exists_eq_add_of_le' (Nat.le_trans (by omega : 1 ≤ _) hturns)
    obtain ⟨x, xs, rfl⟩ := List.exists_cons_of_length_pos (l := b) (by omega)
    have hstep : subblocks (n + 1) ((x :: xs) ++ (rest.flatten ++ last)) =
        frame (x :: xs) :: subblocks n (rest.flatten ++ last) := by
      rw [List.cons_append, subblocks, ← List.cons_append, Config.sbMax, ← hb, List.take_left, List.drop_left]
      simp
    rw [hstep, ih hrest (by omega), List.map_cons, List.cons_append]

/-- The payload bytes of the SUBBLOCKs of a payload are that payload (R75). -/
theorem subblocks_payload {payload : List Byte} {turns : Nat} (h : payload.length ≤ turns) :
    (subblocks turns payload).flatMap (List.drop 1) = payload := by
  induction turns generalizing payload with
  | zero => rw [List.length_eq_zero_iff.mp (Nat.le_zero.mp h)]; rfl
  | succ n ih =>
    cases payload with
    | nil => rfl
    | cons x xs =>
      have hrest : ((x :: xs).drop Config.sbMax).length ≤ n := by
        rw [List.length_drop, Config.sbMax]
        omega
      rw [subblocks, List.flatMap_cons, ih hrest]
      · exact List.take_append_drop _ _
      · exact List.cons_ne_nil x xs

/-- A payload needs a SUBBLOCK for every 255 bytes (R75). -/
theorem length_le_subblocks {payload : List Byte} {turns : Nat} (h : payload.length ≤ turns) :
    payload.length ≤ 255 * (subblocks turns payload).length := by
  induction turns generalizing payload with
  | zero => omega
  | succ n ih =>
    cases payload with
    | nil => exact Nat.zero_le _
    | cons x xs =>
      have hdrop : ((x :: xs).drop Config.sbMax).length = xs.length + 1 - 255 := by
        rw [List.length_drop, List.length_cons]
      rw [List.length_cons] at h ⊢
      have hrest := ih (payload := (x :: xs).drop Config.sbMax) (by omega)
      rw [subblocks, List.length_cons]
      · omega
      · exact List.cons_ne_nil x xs

end Sys2Proof.Machine.Wire
end

section
/-!
PROOF. The packer and the framer with a sink that answers `ok` (spec/43_bit_packer.md R160 to R164,
spec/44_subblock_framer.md R181, R182): no operation raises, the bytes taken are full blocks sent and a buffer held, and
PK.FLUSH sends the rest.
-/

namespace Sys2Proof.Machine

/-- Since `base` the transactions `w` have been written and acknowledged, and the sink answers `ok` to the rest of
`n`. -/
structure Acknowledged (base : State) (n : Nat) (w : List (List Byte)) (s : State) : Prop where
  trace : s.trace = base.trace ++ w.map (fun b => (b, .ok))
  stream : s.stream = base.stream ++ w.flatten
  answers : answersOk (n - w.length) s

/-- Since `base` the framer has taken `payload`: in full blocks sent and acknowledged, and in the buffer (R185). -/
def Framed (base : State) (n : Nat) (payload : List Byte) (s : State) : Prop :=
  ∃ full : List (List Byte), (∀ b ∈ full, b.length = 255) ∧ Acknowledged base n (full.map frame) s ∧
    payload = full.flatten ++ heldBytes s

section Acknowledgement

variable {base s t : State} {n : Nat} {w : List (List Byte)} {payload : List Byte}

/-! ### The sink -/

theorem Acknowledged.refl (h : answersOk n s) : Acknowledged s n [] s :=
  ⟨(List.append_nil _).symm, (List.append_nil _).symm, h⟩

theorem Acknowledged.congr (h : Acknowledged base n w s) (ht : t.trace = s.trace) (hs : t.stream = s.stream)
    (ha : t.sinkScript = s.sinkScript) : Acknowledged base n w t :=
  ⟨ht.trans h.trace, hs.trans h.stream, by simpa only [answersOk, ha] using h.answers⟩

theorem answersOk_succ (h : answersOk (n + 1) s) :
    nextAnswer s = .ok ∧ s.sinkScript.tail.take n = List.replicate n .ok := by
  cases hs : s.sinkScript with
  | nil => simp [answersOk, hs, List.replicate_succ] at h
  | cons a rest =>
    rw [answersOk, hs, List.take_succ_cons, List.replicate_succ, List.cons.injEq] at h
    exact ⟨(nextAnswer_cons hs).trans h.1, h.2⟩

/-- One more transaction, while answers are left (R55, R183). -/
theorem Acknowledged.sinkWrite_done (h : Acknowledged base n w s) (hw : w.length < n) (bytes : List Byte) :
    sinkWrite bytes s = .done (sinkAnswered bytes s) ∧ Acknowledged base n (w ++ [bytes]) (sinkAnswered bytes s) := by
  have hleft := h.answers
  have hcount : n - w.length = n - (w ++ [bytes]).length + 1 := by
    rw [List.length_append, List.length_singleton]
    omega
  rw [hcount] at hleft
  obtain ⟨hok, hrest⟩ := answersOk_succ hleft
  refine ⟨sinkWrite_ok hok bytes, ?_, ?_, hrest⟩
  · rw [sinkAnswered_trace, h.trace, hok, List.map_append, List.append_assoc, List.map_singleton]
  · rw [sinkAnswered_stream, streamGain_ok hok, h.stream, List.flatten_append, List.append_assoc,
      List.flatten_singleton]

/-! ### The framer -/

theorem heldBlock_frame (s : State) : heldBlock s = frame (heldBytes s) := by
  rw [heldBlock_eq, frame_of_length (heldBytes_length s).symm]

theorem Framed.refl (h : answersOk n s) : Framed s n (heldBytes s) s := ⟨[], by simp, .refl h, rfl⟩

theorem Framed.congr (h : Framed base n payload s) (ht : t.trace = s.trace) (hs : t.stream = s.stream)
    (ha : t.sinkScript = s.sinkScript) (hheld : heldBytes t = heldBytes s) : Framed base n payload t := by
  obtain ⟨full, hfull, hsent, rfl⟩ := h
  exact ⟨full, hfull, hsent.congr ht hs ha, by rw [hheld]⟩

theorem flatten_length_of_full {full : List (List Byte)} (h : ∀ b ∈ full, b.length = 255) :
    full.flatten.length = 255 * full.length := by
  induction full with
  | nil => rfl
  | cons b rest ih =>
    obtain ⟨hb, hrest⟩ := List.forall_mem_cons.mp h
    rw [List.flatten_cons, List.length_append, hb, ih hrest, List.length_cons]
    omega

theorem tracePayload_frames (full : List (List Byte)) :
    Wire.tracePayload ((full.map frame).map (fun b => (b, .ok))) = full.flatten := by
  induction full with
  | nil => rfl
  | cons b rest ih =>
    rw [List.map_cons, List.map_cons, Wire.tracePayload, List.flatMap_cons, ← Wire.tracePayload, ih, List.flatten_cons]
    rfl

/-- The payload so far is what was written before `base`, then what the framer has taken since. -/
theorem Framed.payloadSoFar (h : Framed base n payload s) :
    Wire.payloadSoFar s = Wire.tracePayload base.trace ++ payload := by
  obtain ⟨full, _, hsent, rfl⟩ := h
  rw [Wire.payloadSoFar, hsent.trace, Wire.tracePayload_append, tracePayload_frames, List.append_assoc]

theorem putByte_outside_buffer (b : Byte) (hc : s.sbCount.toNat < 255) :
    (putByte b s).trace = s.trace ∧ (putByte b s).stream = s.stream ∧ (putByte b s).sinkScript = s.sinkScript := by
  rw [(putByte_spec hc b).2]
  exact ⟨rfl, rfl, rfl⟩

/-- SB.PUT takes a byte as long as an answer is left for the block it may have to send first (R181). -/
theorem Framed.sbPut_done (h : Framed base n payload s) (hroom : payload.length < 255 * (n + 1)) (b : Byte) :
    ∃ t, sbPut b s = .done t ∧ Framed base n (payload ++ [b]) t := by
  obtain ⟨full, hfull, hsent, rfl⟩ := h
  rw [List.length_append, flatten_length_of_full hfull, heldBytes_length] at hroom
  have hwrite : s.sbCount.toNat = 255 → _ := fun hc =>
    hsent.sinkWrite_done (by rw [List.length_map]; omega) (heldBlock s)
  rcases sbPut_cases b s with ⟨hc, hp⟩ | ⟨hc, _, hp⟩ | ⟨hc, hfail, _⟩
  · obtain ⟨ht, hs, ha⟩ := putByte_outside_buffer b hc
    exact ⟨_, hp, full, hfull, hsent.congr ht hs ha, by rw [putByte_held hc, List.append_assoc]⟩
  · have hempty : (bufEmpty (sinkAnswered (heldBlock s) s)).sbCount.toNat < 255 := by simp
    obtain ⟨ht, hs, ha⟩ := putByte_outside_buffer b hempty
    refine ⟨_, hp, full ++ [heldBytes s], ?_, ?_, ?_⟩
    · exact List.forall_mem_append.mpr ⟨hfull, by simp [hc]⟩
    · rw [List.map_append, List.map_singleton, ← heldBlock_frame]
      exact (hwrite hc).2.congr ht hs ha
    · rw [putByte_held hempty, heldBytes_bufEmpty, List.flatten_append, List.flatten_singleton, List.nil_append]
  · have hdone := (hwrite hc).1
    rw [sinkWrite_fail hfail] at hdone
    cases hdone

/-- SB.TERMINATE sends the payload's last SUBBLOCK and the TERMINATOR as long as answers are left (R77, R182). -/
theorem Framed.sbTerminate_done (h : Framed base n payload s) (hn : 0 < n) (hroom : payload.length ≤ 255 * (n - 1)) :
    ∃ t, sbTerminate s = .done t ∧ Acknowledged base n (Wire.blocks payload) t := by
  obtain ⟨full, hfull, hsent, rfl⟩ := h
  have hlen := heldBytes_length s
  have hcount := s.sbCount.isLt
  rw [List.length_append, flatten_length_of_full hfull] at hroom
  have hblocks : Wire.blocks (full.flatten ++ heldBytes s) =
      (full.map frame ++ if heldBytes s = [] then [] else [frame (heldBytes s)]) ++ [[0x00]] := by
    rw [Wire.blocks, Wire.subblocks_flatten hfull (by omega) (Nat.le_refl _)]
  unfold sbTerminate flushPartial
  split
  · next h0 =>
    have hnil : heldBytes s = [] := List.length_eq_zero_iff.mp (by simp [h0])
    obtain ⟨hw, hend⟩ := hsent.sinkWrite_done (by rw [List.length_map]; omega) [0x00]
    rw [hblocks, if_pos hnil, List.append_nil]
    exact ⟨_, hw, hend⟩
  · next h0 =>
    have hpos : 0 < s.sbCount.toNat := Nat.pos_of_ne_zero fun hz => h0 (BitVec.eq_of_toNat_eq (by simpa using hz))
    have hne : heldBytes s ≠ [] := fun hnil => by simp [hnil] at hlen; omega
    obtain ⟨hw, hlast⟩ := hsent.sinkWrite_done (by rw [List.length_map]; omega) (heldBlock s)
    have hemptied := hlast.congr (t := bufEmpty (sinkAnswered (heldBlock s) s)) rfl rfl rfl
    obtain ⟨hw', hend⟩ := hemptied.sinkWrite_done
      (by rw [List.length_append, List.length_map, List.length_singleton]; omega) [0x00]
    rw [hw, andThen_done, andThen_done, hw', hblocks, if_neg hne, ← heldBlock_frame]
    exact ⟨_, rfl, hend⟩

/-! ### The packer -/

theorem Framed.extractByte_done (h : Framed base n payload s) (hroom : payload.length < 255 * (n + 1)) :
    ∃ t, extractByte s = .done t ∧ Framed base n (payload ++ [lowByte s]) t := by
  obtain ⟨u, hput, hu⟩ := h.sbPut_done hroom (lowByte s)
  exact ⟨shiftOut u, by rw [extractByte, hput, andThen_done], hu.congr rfl rfl rfl rfl⟩

/-- The loop of `pack` ends while its bits fit the blocks that will be acknowledged and one more buffer (R160). -/
theorem Framed.extractWhile_done (h : Framed base n payload s)
    (hroom : 8 * payload.length + s.shiftBits.toNat ≤ 2040 * (n + 1)) (turns : Nat) :
    ∃ t payload', extractWhile 8 turns s = .done t ∧ Framed base n payload' t := by
  induction turns generalizing s payload with
  | zero => exact ⟨s, payload, rfl, h⟩
  | succ k ih =>
    rw [extractWhile]
    split
    · next h8 =>
      obtain ⟨u, hbyte, hu⟩ := h.extractByte_done (by omega)
      obtain ⟨hbits, _⟩ := extractByte_spec hbyte h8
      rw [hbyte, andThen_done]
      refine ih hu ?_
      rw [List.length_append, List.length_singleton]
      omega
    · exact ⟨s, payload, rfl, h⟩

/-- `pack(c)` completes while its bits fit the blocks that will be acknowledged and one more buffer (R160). -/
theorem Framed.pack_done {c : Code} (h : Framed base n payload s) (hp : PackerRegs s) (hr : s.runningBits.toNat ≤ 12)
    (hc : c.toNat < 2 ^ s.runningBits.toNat)
    (hroom : 8 * payload.length + s.shiftBits.toNat + s.runningBits.toNat ≤ 2040 * (n + 1)) :
    ∃ t payload', pack c s = .done t ∧ Framed base n payload' t := by
  obtain ⟨hbits, _⟩ := shiftIn_spec hp hr hc
  exact Framed.extractWhile_done (s := shiftIn c s) (h.congr rfl rfl rfl rfl) (by omega) 3

/-- The last bits of the accumulator become a byte, padded with zero bits (R163). -/
theorem Framed.drain (h : Framed base n payload s) (hp : PackerRegs s)
    (hroom : 8 * payload.length + s.shiftBits.toNat ≤ 2040 * (n + 1)) :
    ∃ t payload' pad, extractWhile 1 4 s = .done t ∧ Framed base n payload' t ∧ pad < 8 ∧
      Wire.bytesBits payload' =
        Wire.bytesBits payload ++ Wire.valueBits s.shiftBits.toNat s.shiftValue.toNat ++ List.replicate pad false := by
  have h7 := hp.bitsHigh
  rw [extractWhile]
  split
  · next h1 =>
    obtain ⟨u, hbyte, hu⟩ := h.extractByte_done (by omega)
    have hdrained := extractByte_drains hp
    rw [hbyte] at hdrained
    obtain ⟨hzero, _⟩ : u.shiftBits = 0 ∧ u.shiftValue = 0 := hdrained
    have hsmall : s.shiftValue.toNat < 2 ^ 8 :=
      Nat.lt_of_lt_of_le hp.valueFits (Nat.pow_le_pow_right (by decide) (by omega))
    refine ⟨u, _, 8 - s.shiftBits.toNat, ?_, hu, by omega, ?_⟩
    · rw [hbyte, andThen_done, extractWhile_stop 3 (by simp [hzero])]
    · rw [Wire.bytesBits_append, Wire.bytesBits_singleton, lowByte_toNat, Nat.mod_eq_of_lt hsmall,
        Wire.valueBits_pad hp.valueFits (by omega), List.append_assoc]
  · next h1 =>
    refine ⟨s, payload, 0, rfl, h, by decide, ?_⟩
    rw [show s.shiftBits.toNat = 0 by omega, Wire.valueBits_zero, List.replicate_zero, List.append_nil, List.append_nil]

/-- PK.FLUSH sends every bit taken so far and fewer than eight zero bits, in the blocks of that payload (R77, R163). -/
theorem Framed.flush_done (h : Framed base n payload s) (hp : PackerRegs s) (hn : 0 < n)
    (hroom : 8 * payload.length + s.shiftBits.toNat ≤ 2040 * (n - 1)) :
    ∃ t payload' pad, flush s = .done t ∧ Acknowledged base n (Wire.blocks payload') t ∧ pad < 8 ∧
      Wire.bytesBits payload' =
        Wire.bytesBits payload ++ Wire.valueBits s.shiftBits.toNat s.shiftValue.toNat ++ List.replicate pad false := by
  obtain ⟨u, payload', pad, hloop, hu, hpad, hbits⟩ := h.drain hp (by omega)
  have hlen := congrArg List.length hbits
  simp only [Wire.bytesBits_length, List.length_append, Wire.valueBits_length, List.length_replicate] at hlen
  obtain ⟨t, hterm, ht⟩ := hu.sbTerminate_done hn (by omega)
  exact ⟨t, payload', pad, by rw [flush, hloop, andThen_done, hterm], ht, hpad, hbits⟩

/-- What a completed PK.FLUSH leaves alone, and that nothing stays in accumulator and buffer (R63, R163). -/
theorem flush_leaves (hp : PackerRegs s) (h : flush s = .done t) :
    OutsideKept s t ∧ (t.shiftValue = 0 ∧ t.shiftBits = 0) ∧ t.sbCount = 0 := by
  obtain ⟨u, hloop, hterm⟩ := andThen_eq_done.mp h
  have hkept := (extractWhile_kept 1 4 s).1
  have hdrained := extractWhile_drains 3 hp
  have hend := sbTerminate_ends u
  rw [hloop] at hkept hdrained
  rw [hterm] at hend
  obtain ⟨hb, hv⟩ : u.shiftBits = 0 ∧ u.shiftValue = 0 := hdrained
  obtain ⟨⟨hkept', hv', hb'⟩, hempty⟩ : (OutsideKept u t ∧ samePacker u t) ∧ t.sbCount = 0 := hend
  exact ⟨hkept.trans hkept', ⟨hv'.trans hv, hb'.trans hb⟩, hempty⟩

theorem OutsideKept.sameDict (h : OutsideKept s t) : sameDict s t := fun _ => by rw [dictRead, dictRead, h.dict]

end Acknowledgement

/-! ### The packer's operations as steps of their own -/

section Emit

variable {c : Code} {s : State}

/-- With one answer to come `pack(c)` completes from any buffer: its bits never fill a second one (R160). -/
theorem pack_completes (hp : PackerRegs s) (hr : s.runningBits.toNat ≤ 12) (hc : c.toNat < 2 ^ s.runningBits.toNat)
    (ha : answersOk 1 s) : ∃ t, pack c s = .done t := by
  have h7 := hp.bitsHigh
  have hcount := s.sbCount.isLt
  obtain ⟨t, _, hpack, _⟩ := (Framed.refl ha).pack_done hp hr hc (by rw [heldBytes_length]; omega)
  exact ⟨t, hpack⟩

end Emit

/-- Settles O51: one answer lets the packing complete, and what it does then is `pack_spec`. -/
theorem emitSpecialAppendsBits : Obligations.EmitSpecialAppendsBits := by
  intro c s hp hr hc ha
  obtain ⟨t, hpack⟩ := pack_completes hp hr hc ha
  obtain ⟨hpt, hbits, hk, _⟩ := pack_spec hp hr hc hpack
  have hexec : exec (.pkEmitSpecial c) s = .next t := by rw [exec, execPkEmitSpecial, emitSpecial, hpack, finish_done]
  exact ⟨t, hexec, hpt, hbits, hk.control, hk.session, hk.width, hk.sameDict, hk.host, hk.replies⟩

/-- Settles O52: as for O51, and what the completed packing and the growth do is `emitData_spec`. -/
theorem emitDataAppendsBitsThenGrows : Obligations.EmitDataAppendsBitsThenGrows := by
  intro c s hp hr hc hz ha
  obtain ⟨u, hpack⟩ := pack_completes hp hr hc ha
  have hdone : emitData c s = .done (wcGrow u) := by rw [emitData, hpack, andThen_done]
  obtain ⟨hpt, hbits, hcode, hwidth, hcontrol, hsession, hdict, hhost, hreplies, _⟩ := emitData_spec hp hr hc hz hdone
  have hexec : exec (.pkEmitData c) s = .next (wcGrow u) := by rw [exec, execPkEmitData, hdone, finish_done]
  exact ⟨wcGrow u, hexec, hpt, hbits, hcode, hwidth, hcontrol, hsession, fun _ => by rw [dictRead, dictRead, hdict],
    hhost, hreplies⟩

/-- Settles O53: the blocks PK.FLUSH sends hold the bytes of the buffer and the padded bits of the accumulator. -/
theorem flushHandsOverEveryBit : Obligations.FlushHandsOverEveryBit := by
  intro s hp ha
  have h7 := hp.bitsHigh
  have hcount := s.sbCount.isLt
  obtain ⟨t, payload, pad, hflush, hsent, hpad, hbits⟩ :=
    (Framed.refl ha).flush_done hp (by decide) (by rw [heldBytes_length]; omega)
  obtain ⟨hk, ⟨hvalue, hzero⟩, hempty⟩ := flush_leaves hp hflush
  have hexec : exec .pkFlush s = .next t := by rw [exec, execPkFlush, hflush, finish_done]
  have hpayload : Wire.tracePayload t.trace = Wire.tracePayload s.trace ++ payload := by
    have hblocks := Wire.subblocks_payload (Nat.le_refl payload.length)
    rw [hsent.trace, Wire.tracePayload_append, Wire.blocks, Wire.tracePayload, Wire.tracePayload, List.flatMap_map,
      List.flatMap_append, hblocks]
    simp
  refine ⟨t, (Wire.subblocks payload.length payload).map (fun b => (b, .ok)), pad, hexec, hvalue, hzero, hempty, ?_, hpad,
    ?_, hk.control, hk.session, hk.width, hk.sameDict, hk.host, hk.replies⟩
  · rw [hsent.trace, Wire.blocks, List.map_append, List.append_assoc, List.map_singleton]
  · rw [hpayload, Wire.bytesBits_append, hbits, Wire.bitsSoFar, Wire.payloadSoFar, Wire.bytesBits_append]
    simp only [List.append_assoc]

end Sys2Proof.Machine
end

section
/-!
PROOF. A session's bits still to come (spec/20_memory.md R57, spec/43_bit_packer.md R160 to R163): packing a code pays
the first of them, and a flush with none left sends the blocks of the session's bit string.
-/

namespace Sys2Proof.Machine

/-- Of a session that began writing at `base`, with `total` as its whole bit string, `rest` is still to be emitted; `n`
answers are enough for the blocks of `total` and the TERMINATOR. -/
structure Owing (base : State) (n : Nat) (total rest : List Bool) (s : State) : Prop where
  room : total.length + 2040 ≤ 2040 * n
  packer : PackerRegs s
  framed : ∃ payload, Framed base n payload s
  bits : Wire.bytesBits (Wire.tracePayload base.trace) ++ total = Wire.bitsSoFar s ++ rest

section Owing

variable {base s t : State} {n : Nat} {total rest : List Bool}

theorem bitsSoFar_congr (ht : t.trace = s.trace) (hp : samePacker s t) (hheld : heldBytes t = heldBytes s) :
    Wire.bitsSoFar t = Wire.bitsSoFar s := by
  obtain ⟨hv, hb⟩ := hp
  rw [Wire.bitsSoFar, Wire.bitsSoFar, Wire.payloadSoFar, Wire.payloadSoFar, ht, hv, hb, hheld]

theorem Owing.congr (h : Owing base n total rest s) (hsink : sameSink s t) (hp : samePacker s t)
    (hheld : heldBytes t = heldBytes s) : Owing base n total rest t := by
  obtain ⟨ha, hs, ht⟩ := hsink
  obtain ⟨payload, hframed⟩ := h.framed
  exact ⟨h.room, h.packer.congr hp, ⟨payload, hframed.congr ht hs ha hheld⟩, by
    rw [bitsSoFar_congr ht hp hheld]
    exact h.bits⟩

/-- The session's bits are those of the bytes taken, those in the accumulator, and the rest. -/
theorem Owing.total_eq (h : Owing base n total rest s) {payload : List Byte} (hframed : Framed base n payload s) :
    total = Wire.bytesBits payload ++ Wire.valueBits s.shiftBits.toNat s.shiftValue.toNat ++ rest := by
  have hbits := h.bits
  rw [Wire.bitsSoFar, hframed.payloadSoFar, Wire.bytesBits_append, List.append_assoc, List.append_assoc,
    List.append_cancel_left_eq] at hbits
  rw [hbits, List.append_assoc]

theorem Owing.count (h : Owing base n total rest s) {payload : List Byte} (hframed : Framed base n payload s) :
    8 * payload.length + s.shiftBits.toNat + rest.length = total.length := by
  rw [h.total_eq hframed, List.length_append, List.length_append, Wire.bytesBits_length, Wire.valueBits_length]

/-- A code whose bits are due next is packed without an error (R57, R160). -/
theorem Owing.pack {c : Code} (h : Owing base n total (Wire.valueBits s.runningBits.toNat c.toNat ++ rest) s)
    (hr : s.runningBits.toNat ≤ 12) (hc : c.toNat < 2 ^ s.runningBits.toNat) :
    ∃ t, pack c s = .done t ∧ OutsideKept s t ∧ Owing base n total rest t := by
  obtain ⟨payload, hframed⟩ := h.framed
  have hcount := h.count hframed
  have hroom := h.room
  rw [List.length_append, Wire.valueBits_length] at hcount
  obtain ⟨t, payload', hpack, hframed'⟩ := hframed.pack_done h.packer hr hc (by omega)
  obtain ⟨hp, hbits, hk, _⟩ := pack_spec h.packer hr hc hpack
  refine ⟨t, hpack, hk, hroom, hp, ⟨payload', hframed'⟩, ?_⟩
  rw [h.bits, hbits, List.append_assoc]

/-- With every bit emitted PK.FLUSH sends the blocks of the session's bytes (R77, R163). -/
theorem Owing.flush (h : Owing base n total [] s) :
    ∃ t, flush s = .done t ∧ OutsideKept s t ∧ Acknowledged base n (Wire.blocks (Wire.bitsBytes total)) t := by
  obtain ⟨payload, hframed⟩ := h.framed
  have hcount := h.count hframed
  have hroom := h.room
  rw [List.length_nil] at hcount
  obtain ⟨t, payload', pad, hflush, hsent, hpad, hbits⟩ := hframed.flush_done h.packer (by omega) (by omega)
  have htotal := h.total_eq hframed
  rw [List.append_nil] at htotal
  rw [← htotal] at hbits
  obtain ⟨hk, _⟩ := flush_leaves h.packer hflush
  exact ⟨t, hflush, hk, by rwa [Wire.bitsBytes_unique hbits hpad]⟩

end Owing

end Sys2Proof.Machine
end

section
/-!
PROOF. A whole session against its reference (spec/30_encoding.md R72 to R79, spec/41_code_emitter.md R125 to R131): the
machine's registers and dictionary follow the codes of Machine/Wire.lean pixel by pixel.
-/

namespace Sys2Proof.Machine

/-! ### The width of the reference -/

/-- What makes a width the scheduled one (R79). -/
theorem widthAfter_eq {lzBits bpp k w : Nat} (hlow : bpp + 1 ≤ w) (hhigh : w ≤ lzBits)
    (hfits : 2 ^ bpp + 2 + k ≤ 2 ^ w ∨ w = lzBits) (hleast : w = bpp + 1 ∨ 2 ^ (w - 1) < 2 ^ bpp + 2 + k) :
    Wire.widthAfter lzBits bpp k = w := by
  unfold Wire.widthAfter
  by_cases hfit : 2 ^ bpp + 2 + k ≤ 2 ^ w
  · have hfirst : ∀ j, bpp + 1 ≤ j → j < w → (!decide (2 ^ bpp + 2 + k ≤ 2 ^ j)) = true := by
      intro j hj hjw
      have hpow : 2 ^ j ≤ 2 ^ (w - 1) := Nat.pow_le_pow_right (by decide) (by omega)
      simp only [Bool.not_eq_true', decide_eq_false_iff_not]
      omega
    rw [List.find?_range'_eq_some.mpr ⟨decide_eq_true hfit, List.mem_range'_1.mpr (by omega), hfirst⟩, Option.getD_some]
  · obtain rfl := hfits.resolve_left hfit
    have hnone : ∀ j, bpp + 1 ≤ j → j < bpp + 1 + (w - bpp) → (!decide (2 ^ bpp + 2 + k ≤ 2 ^ j)) = true := by
      intro j _ hj
      have hpow : 2 ^ j ≤ 2 ^ w := Nat.pow_le_pow_right (by decide) (by omega)
      simp only [Bool.not_eq_true', decide_eq_false_iff_not]
      omega
    rw [List.find?_range'_eq_none.mpr hnone, Option.getD_none]

section Widths

variable {s : State} {k : Nat}

/-- The width register follows the schedule by the strings assigned (R79, R155). -/
theorem WidthRegs.scheduled (h : WidthRegs s) (hk : s.runningCode.toNat = 2 ^ s.bpp.toNat + 2 + k) :
    Wire.widthAfter s.params.lzBits s.bpp.toNat k = s.runningBits.toNat := by
  obtain ⟨_, _, hmax, hlow, hhigh, hfits, hleast⟩ := h
  exact widthAfter_eq hlow hhigh (.inl (by omega)) (by omega)

/-- After the growth check the width is the one scheduled for one string more (R79, R153). -/
theorem WidthRegs.grown_scheduled (h : WidthRegs s) (hp : s.params.Valid)
    (hk : s.runningCode.toNat = 2 ^ s.bpp.toNat + 2 + k) :
    Wire.widthAfter s.params.lzBits s.bpp.toNat (k + 1) = (wcGrow s).runningBits.toNat := by
  obtain ⟨_, _, hmax, hlow, hhigh, hfits, hleast⟩ := h
  rw [(wcGrow_spec (lzBits_le hp)).1, grownBits]
  split
  · next hgrow =>
    obtain ⟨hfull, hbelow⟩ := hgrow
    have hone := Nat.one_le_two_pow (n := s.runningBits.toNat)
    have hpow := Nat.pow_succ 2 s.runningBits.toNat
    exact widthAfter_eq (by omega) (by omega) (.inl (by omega)) (.inr (by rw [Nat.add_sub_cancel]; omega))
  · next hstay => exact widthAfter_eq hlow hhigh (by omega) (by omega)

end Widths

/-! ### The relation between machine and reference -/

/-- The registers of a session of `bpp` bits, by the number of strings assigned since the last clear, but for the width
(R21, R22). -/
structure Counted (p : Config.Params) (bpp : BitVec 4) (k : Nat) (s : State) : Prop where
  paramsIs : s.params = p
  bppIs : s.bpp = bpp
  regs : SessionRegs s
  codeIs : s.runningCode.toNat = 2 ^ bpp.toNat + 2 + k

/-- The dictionary holds the reference's strings and no others; their codes are among the first assigned from `first`
on (R73). -/
structure Mirrors (first : Nat) (entries : List ((Nat × Nat) × Nat)) (s : State) : Prop where
  size : s.dict.length = entries.length
  reads : ∀ (c : Code) (x : Byte),
    dictRead s (keyOf c x) = (entries.lookup (c.toNat, x.toNat)).map (BitVec.ofNat 12)
  codes : ∀ e ∈ entries, e.2 < first + entries.length

/-- A match running in the machine as in the reference: `held` is the code of the match, `entries` the strings since the
last clear. -/
structure Follows (p : Config.Params) (bpp : BitVec 4) (held : Nat) (entries : List ((Nat × Nat) × Nat)) (s : State) :
    Prop where
  matching : s.fsm = .matching
  counted : Counted p bpp entries.length s
  width : WidthRegs s
  strings : Mirrors (2 ^ bpp.toNat + 2) entries s
  heldIs : s.pendingPrefix.toNat = held
  heldLow : held < 2 ^ bpp.toNat + 2 + entries.length

/-- A session just after a data code: the width is the one scheduled for one string more, and ready for it (R155,
R161). -/
structure Grown (p : Config.Params) (bpp : BitVec 4) (entries : List ((Nat × Nat) × Nat)) (s : State) : Prop where
  matching : s.fsm = .matching
  counted : Counted p bpp entries.length s
  strings : Mirrors (2 ^ bpp.toNat + 2) entries s
  bits : s.runningBits.toNat = Wire.widthAfter p.lzBits bpp.toNat (entries.length + 1)
  bitsHigh : s.runningBits.toNat ≤ 12
  fits : ∀ c, c < 2 ^ bpp.toNat + 2 + entries.length → c < 2 ^ s.runningBits.toNat
  codeHigh : 2 ^ bpp.toNat + 2 + entries.length ≤ p.lzMaxCode
  advanced : 2 ^ bpp.toNat + 2 + entries.length < p.lzMaxCode → WidthRegs (wcAdvance s)

/-- The bits of a list of codes with their widths, as the reference strings them together. -/
abbrev codeBits (codes : List (Nat × Nat)) : List Bool := codes.flatMap (fun c => Wire.valueBits c.2 c.1)

section Session

variable {base s t : State} {n k held first : Nat} {total rest : List Bool} {p : Config.Params} {bpp : BitVec 4}
  {entries : List ((Nat × Nat) × Nat)}

theorem Counted.congr (h : Counted p bpp k s) (hp : t.params = s.params) (hb : t.bpp = s.bpp)
    (hc : t.clearCode = s.clearCode) (he : t.eofCode = s.eofCode) (hr : t.runningCode = s.runningCode) :
    Counted p bpp k t :=
  ⟨hp.trans h.paramsIs, hb.trans h.bppIs, h.regs.congr hb hc he, by rw [hr]; exact h.codeIs⟩

theorem Counted.of_kept (h : Counted p bpp k s) (hk : OutsideKept s t) : Counted p bpp k t := by
  obtain ⟨hb, hc, he, _⟩ := hk.session
  exact h.congr hk.params hb hc he hk.runningCode

theorem Mirrors.congr (h : Mirrors first entries s) (hd : t.dict = s.dict) : Mirrors first entries t :=
  ⟨by rw [hd]; exact h.size, fun c x => by rw [dictRead, hd]; exact h.reads c x, h.codes⟩

theorem Follows.of_kept (h : Follows p bpp held entries s) (hk : OutsideKept s t) : Follows p bpp held entries t := by
  obtain ⟨_, _, _, _, hheld⟩ := hk.session
  exact ⟨hk.fsm.trans h.matching, h.counted.of_kept hk, h.width.of_kept hk, h.strings.congr hk.dict,
    by rw [hheld]; exact h.heldIs, h.heldLow⟩

/-- The special codes of the session are the reference's (R73). -/
theorem Counted.special (h : Counted p bpp k s) :
    (specialCode s.clearCode).toNat = 2 ^ bpp.toNat ∧ (specialCode s.eofCode).toNat = 2 ^ bpp.toNat + 1 := by
  rw [specialCode_toNat, specialCode_toNat, h.regs.clearIs, h.regs.eofIs, h.bppIs]
  exact ⟨rfl, rfl⟩

/-! ### A session without strings -/

/-- A clear starts the widths and empties the dictionary behind the session's registers (R123, R129). -/
theorem clear_counted (hp : s.params.Valid) (hr : SessionRegs s) :
    Counted s.params s.bpp 0 (dictClearAll (wcInit s)) ∧ WidthRegs (dictClearAll (wcInit s)) ∧
      Mirrors (2 ^ s.bpp.toNat + 2) [] (dictClearAll (wcInit s)) := by
  obtain ⟨hcode, _⟩ := wcInit_spec (Nat.le_trans hr.bppHigh (by decide) : s.bpp.toNat ≤ 11)
  rw [hr.eofIs] at hcode
  exact ⟨⟨rfl, rfl, hr.congr rfl rfl rfl, hcode⟩, (wcInit_widthRegs hp hr).congr ⟨rfl, rfl, rfl⟩ rfl rfl rfl,
    rfl, fun _ _ => rfl, by simp⟩

/-- A match of one pixel, with no string assigned (R126, R129). -/
theorem Follows.of_clear {x : Byte} (hf : s.fsm = .matching) (hc : Counted p bpp 0 s) (hw : WidthRegs s)
    (hm : Mirrors (2 ^ bpp.toNat + 2) [] s) (hpre : s.pendingPrefix = pixelCode x) (hx : x.toNat < 2 ^ bpp.toNat) :
    Follows p bpp x.toNat [] s :=
  ⟨hf, hc, hw, hm, by rw [hpre, pixelCode_toNat], by rw [List.length_nil]; omega⟩

/-! ### The codes -/

/-- WC.GROW writes no item but the width and its threshold (R153). -/
theorem wcGrow_output (s : State) :
    sameSink s (wcGrow s) ∧ samePacker s (wcGrow s) ∧ heldBytes (wcGrow s) = heldBytes s := by
  rcases wcGrow_cases s with ⟨_, _, hg⟩ | ⟨_, hg⟩ <;> rw [hg] <;> exact ⟨⟨rfl, rfl, rfl⟩, ⟨rfl, rfl⟩, rfl⟩

/-- What the growth check makes of a session (R153, R155). -/
theorem Follows.grown (h : Follows p bpp held entries s) (hp : p.Valid) : Grown p bpp entries (wcGrow s) := by
  obtain ⟨rfl, rfl, hregs, hcode⟩ := h.counted
  obtain ⟨⟨hf, _⟩, ⟨hb, hclear, heof, _⟩, hrun, hdict, _, _, hparams⟩ := wcGrow_kept s
  obtain ⟨hle, hfits⟩ := h.width.grown_fits hp
  have hhigh := h.width.codeHigh
  rw [hcode] at hfits hhigh
  exact ⟨hf.trans h.matching, h.counted.congr hparams hb hclear heof hrun, h.strings.congr hdict,
    (h.width.grown_scheduled hp hcode).symm, hle, hfits, hhigh,
    fun hroom => wcAdvance_wcGrow_widthRegs hp h.width (hcode ▸ hroom)⟩

/-- The data code of the running match is emitted at the scheduled width, and then the width grows (R128, R161). -/
theorem Follows.emitData (h : Follows p bpp held entries s) (hp : p.Valid)
    (ho : Owing base n total
      (Wire.valueBits (Wire.widthAfter p.lzBits bpp.toNat entries.length) held ++ rest) s) :
    ∃ t, emitData s.pendingPrefix s = .done t ∧ Grown p bpp entries t ∧ t.quota = s.quota ∧
      Owing base n total rest t := by
  obtain ⟨rfl, rfl, _, hcode⟩ := h.counted
  rw [h.width.scheduled hcode, ← h.heldIs] at ho
  have hlow : s.pendingPrefix.toNat < s.runningCode.toNat := by
    rw [h.heldIs, hcode]
    exact h.heldLow
  obtain ⟨u, hpack, hk, hu⟩ := ho.pack (h.width.bits_le hp) (h.width.code_fits hlow)
  obtain ⟨_, ⟨_, _, _, hq, _⟩, _⟩ := wcGrow_kept u
  obtain ⟨hsink, hpacker, hheld⟩ := wcGrow_output u
  exact ⟨wcGrow u, by rw [Machine.emitData, hpack, andThen_done], (h.of_kept hk).grown hp, hq.trans hk.quota,
    hu.congr hsink hpacker hheld⟩

/-- A special code after a data code is emitted at the grown width (R129, R131). -/
theorem Grown.emitSpecial {c : Code} (h : Grown p bpp entries s) (hc : c.toNat < 2 ^ bpp.toNat + 2 + entries.length)
    (ho : Owing base n total
      (Wire.valueBits (Wire.widthAfter p.lzBits bpp.toNat (entries.length + 1)) c.toNat ++ rest) s) :
    ∃ t, emitSpecial c s = .done t ∧ OutsideKept s t ∧ Owing base n total rest t := by
  rw [← h.bits] at ho
  exact ho.pack h.bitsHigh (h.fits _ hc)

theorem Grown.setPrefix (h : Grown p bpp entries s) (c : Code) : Grown p bpp entries (setPrefix c s) :=
  ⟨h.matching, h.counted.congr rfl rfl rfl rfl rfl, h.strings.congr rfl, h.bits, h.bitsHigh, h.fits, h.codeHigh,
    fun hroom => (h.advanced hroom).congr ⟨rfl, rfl, rfl⟩ rfl rfl rfl⟩

theorem Grown.isSaturated_iff (h : Grown p bpp entries s) :
    isSaturated s = true ↔ 2 ^ bpp.toNat + 2 + entries.length = p.lzMaxCode := by
  rw [isSaturated, beq_iff_eq, h.counted.codeIs, h.counted.paramsIs]

/-! ### The strings -/

theorem keyOf_eq_iff {c c' : Code} {x x' : Byte} :
    keyOf c x = keyOf c' x' ↔ (c.toNat, x.toNat) = (c'.toNat, x'.toNat) := by
  have hx := x.isLt
  have hx' := x'.isLt
  rw [← BitVec.toNat_inj, keyOf_toNat, keyOf_toNat, Prod.mk.injEq]
  omega

/-- An insert of the next code adds the string the reference adds (R103, R130). -/
theorem Mirrors.dictPut {c code : Code} {x : Byte} (h : Mirrors first entries s)
    (hmiss : dictRead s (keyOf c x) = none) (hcode : code.toNat = first + entries.length) :
    Mirrors first (((c.toNat, x.toNat), first + entries.length) :: entries) (dictPut (keyOf c x) code s) := by
  refine ⟨?size, fun c' x' => ?reads, ?codes⟩
  case size => rw [dictPut_dict, storePut_length hmiss, h.size, List.length_cons]
  case reads =>
    rw [dictRead, dictPut_dict]
    by_cases hkey : keyOf c' x' = keyOf c x
    · rw [hkey, storeGet_put_same, keyOf_eq_iff.mp hkey, List.lookup_cons_self, Option.map_some, ← hcode,
        BitVec.ofNat_toNat, BitVec.setWidth_eq]
    · have hpair : ((c'.toNat, x'.toNat) == (c.toNat, x.toNat)) = false :=
        beq_eq_false_iff_ne.mpr fun he => hkey (keyOf_eq_iff.mpr he)
      rw [storeGet_put_other _ _ _ fun he => hkey (BitVec.eq_of_toNat_eq he), List.lookup_cons, hpair]
      exact h.reads c' x'
  case codes =>
    rw [List.length_cons]
    exact List.forall_mem_cons.mpr
      ⟨Nat.lt_succ_self _, fun e he => Nat.lt_succ_of_lt (h.codes e he)⟩

theorem Mirrors.lookup_lt {key : Nat × Nat} {code : Nat} (h : Mirrors first entries s)
    (hl : entries.lookup key = some code) : code < first + entries.length := by
  obtain ⟨l₁, l₂, rfl, _⟩ := List.lookup_eq_some_iff.mp hl
  exact h.codes (key, code) (by simp)

theorem Counted.lzMaxCode_le (h : Counted p bpp k s) (hp : p.Valid) : p.lzMaxCode ≤ 4096 :=
  h.paramsIs ▸ Machine.lzMaxCode_le (h.paramsIs ▸ hp)

/-- A hit takes the code of the reference's string as the match (R127). -/
theorem Follows.hit {x : Byte} {code : Nat} (h : Follows p bpp held entries s) (hp : p.Valid)
    (hl : entries.lookup (held, x.toNat) = some code) :
    pushMatching x s = .ok (.done (setPrefix (BitVec.ofNat 12 code) s)) ∧
      Follows p bpp code entries (setPrefix (BitVec.ofNat 12 code) s) := by
  have hlow := h.strings.lookup_lt hl
  have hmax := h.width.codeHigh
  have hcap := h.counted.lzMaxCode_le hp
  rw [h.counted.codeIs, h.counted.paramsIs] at hmax
  have hread := h.strings.reads s.pendingPrefix x
  rw [h.heldIs, hl, Option.map_some] at hread
  refine ⟨by rw [pushMatching, hread], h.matching, h.counted.congr rfl rfl rfl rfl rfl,
    h.width.congr ⟨rfl, rfl, rfl⟩ rfl rfl rfl, h.strings.congr rfl, ?_, hlow⟩
  rw [setPrefix_pendingPrefix, BitVec.toNat_ofNat, Nat.mod_eq_of_lt (by omega)]

/-- Below capacity the string that missed gets the next code (R130). -/
theorem Grown.insert {c : Code} {x : Byte} (h : Grown p bpp entries s) (hp : p.Valid)
    (hpre : s.pendingPrefix = pixelCode x) (hx : x.toNat < 2 ^ bpp.toNat)
    (hl : entries.lookup (c.toNat, x.toNat) = none) (hroom : 2 ^ bpp.toNat + 2 + entries.length ≠ p.lzMaxCode) :
    pushInsert (keyOf c x) s = .ok (.done (inserted (keyOf c x) s)) ∧
      Follows p bpp x.toNat (((c.toNat, x.toNat), 2 ^ bpp.toNat + 2 + entries.length) :: entries)
        (inserted (keyOf c x) s) := by
  have hcode := h.counted.codeIs
  have hhigh := h.codeHigh
  have hcap := h.counted.lzMaxCode_le hp
  have hmiss : dictRead s (keyOf c x) = none := by rw [h.strings.reads, hl, Option.map_none]
  have hnext : (inserted (keyOf c x) s).runningCode.toNat = s.runningCode.toNat + 1 :=
    wcAdvance_spec (s := dictPut (keyOf c x) (nextCode s) s) (show s.runningCode.toNat < 4096 by omega)
  refine ⟨pushInsert_ok hmiss ?room, h.matching,
    ⟨h.counted.paramsIs, h.counted.bppIs, h.counted.regs.congr rfl rfl rfl, ?code⟩,
    (h.advanced (by omega)).congr ⟨rfl, rfl, rfl⟩ rfl rfl rfl, ?strings, by rw [← pixelCode_toNat x, ← hpre]; rfl, ?low⟩
  case room =>
    rw [h.strings.size, h.counted.paramsIs]
    omega
  case code => rw [hnext, hcode, List.length_cons, Nat.add_assoc]
  case strings =>
    exact (h.strings.dictPut hmiss ((nextCode_toNat (by omega)).trans hcode)).congr rfl
  case low =>
    rw [List.length_cons]
    omega

/-- At capacity the clear code is emitted, and the match goes on without strings (R129). -/
theorem Grown.saturate {x : Byte} (h : Grown p bpp entries s) (hp : p.Valid) (hpre : s.pendingPrefix = pixelCode x)
    (hx : x.toNat < 2 ^ bpp.toNat)
    (ho : Owing base n total
      (Wire.valueBits (Wire.widthAfter p.lzBits bpp.toNat (entries.length + 1)) (2 ^ bpp.toNat) ++ rest) s) :
    ∃ t, pushSaturated s = .done t ∧ Follows p bpp x.toNat [] t ∧ Owing base n total rest t ∧ t.quota = s.quota := by
  obtain ⟨hclear, _⟩ := h.counted.special
  rw [← hclear] at ho
  obtain ⟨u, hemit, hk, hu⟩ := h.emitSpecial (by omega) ho
  obtain ⟨_, _, _, _, hpre'⟩ := hk.session
  obtain ⟨rfl, rfl, hregs, _⟩ := h.counted.of_kept hk
  obtain ⟨hcounted, hwidth, hstrings⟩ := clear_counted hp hregs
  exact ⟨dictClearAll (wcInit u), by rw [pushSaturated, hemit, andThen_done],
    .of_clear (hk.fsm.trans h.matching) hcounted hwidth hstrings (hpre'.trans hpre) hx,
    hu.congr ⟨rfl, rfl, rfl⟩ ⟨rfl, rfl⟩ rfl, hk.quota⟩

/-! ### One pixel -/

/-- A miss emits the match and goes on with the pixel, in the machine as in the reference (R128 to R130). -/
theorem Follows.miss {x : Byte} {pixels : List Nat} (h : Follows p bpp held entries s) (hp : p.Valid)
    (hx : x.toNat < 2 ^ bpp.toNat) (hl : entries.lookup (held, x.toNat) = none)
    (ho : Owing base n total (codeBits (Wire.codesFrom p bpp.toNat held entries (x.toNat :: pixels))) s) :
    ∃ t entries', pushMiss x s = .ok (.done t) ∧ Follows p bpp x.toNat entries' t ∧
      Owing base n total (codeBits (Wire.codesFrom p bpp.toNat x.toNat entries' pixels)) t ∧ t.quota = s.quota := by
  rw [Wire.codesFrom, hl] at ho
  simp only [codeBits, List.flatMap_cons] at ho
  obtain ⟨u, hemit, hgrown, hq, hu⟩ := h.emitData hp ho
  have hset := hgrown.setPrefix (pixelCode x)
  have hrest := hu.congr (t := setPrefix (pixelCode x) u) ⟨rfl, rfl, rfl⟩ ⟨rfl, rfl⟩ rfl
  rw [pushMiss_of_done hemit]
  by_cases hsat : 2 ^ bpp.toNat + 2 + entries.length = p.lzMaxCode
  · rw [if_pos (hgrown.isSaturated_iff.mpr hsat)]
    rw [if_pos hsat, List.flatMap_cons] at hrest
    obtain ⟨t, hpush, ht, hot, hqt⟩ := hset.saturate hp rfl hx hrest
    exact ⟨t, [], by rw [hpush], ht, hot, hqt.trans hq⟩
  · rw [if_neg fun hs => hsat (hgrown.isSaturated_iff.mp hs)]
    rw [if_neg hsat] at hrest
    rw [← h.heldIs] at hl hrest
    obtain ⟨hpush, ht⟩ := hset.insert hp rfl hx hl hsat
    exact ⟨_, _, hpush, ht, hrest.congr ⟨rfl, rfl, rfl⟩ ⟨rfl, rfl⟩ rfl, hq⟩

/-- One pixel of a running match: the machine emits what the reference emits for it, and follows it (R127 to R130). -/
theorem Follows.pixel {x : Byte} {pixels : List Nat} (h : Follows p bpp held entries s) (hp : p.Valid)
    (hx : x.toNat < 2 ^ bpp.toNat)
    (ho : Owing base n total (codeBits (Wire.codesFrom p bpp.toNat held entries (x.toNat :: pixels))) s) :
    ∃ t held' entries', pushPixel x s = .ok (.done t) ∧ Follows p bpp held' entries' t ∧
      Owing base n total (codeBits (Wire.codesFrom p bpp.toNat held' entries' pixels)) t ∧ t.quota = s.quota := by
  rw [pushPixel, if_neg (by simp [h.matching])]
  cases hl : entries.lookup (held, x.toNat) with
  | some code =>
    rw [Wire.codesFrom, hl] at ho
    obtain ⟨hpush, hfollows⟩ := h.hit hp hl
    exact ⟨_, code, entries, hpush, hfollows, ho.congr ⟨rfl, rfl, rfl⟩ ⟨rfl, rfl⟩ rfl, rfl⟩
  | none =>
    have hread := h.strings.reads s.pendingPrefix x
    rw [h.heldIs, hl, Option.map_none] at hread
    obtain ⟨t, entries', hmiss, ht⟩ := h.miss hp hx hl ho
    exact ⟨t, x.toNat, entries', by rw [pushMatching, hread]; exact hmiss, ht⟩

end Session

end Sys2Proof.Machine
end

section
/-!
PROOF. The host's commands of a whole session (spec/41_code_emitter.md R123, R125, R131, R132): BEGIN opens a session
that owes every bit of the reference, each PUSH follows it by one pixel, and the last one completes it.
-/

namespace Sys2Proof.Machine

/-- A session begun and still without a pixel (R123). -/
structure Begun (p : Config.Params) (bpp : BitVec 4) (s : State) : Prop where
  first : s.fsm = .awaitFirst
  counted : Counted p bpp 0 s
  width : WidthRegs s
  strings : Mirrors (2 ^ bpp.toNat + 2) [] s

/-- How a session of `bpp` bits ends whose bit string is `total` (R131, R132). -/
structure Completed (base : State) (n : Nat) (total : List Bool) (bpp : BitVec 4) (t : State) : Prop where
  fsm : t.fsm = .flushed
  sent : Acknowledged base n (Wire.blocks (Wire.bitsBytes total)) t
  response : t.response = some (bpp ++ 0b1000#4)

/-- The pixels of the reference: each masked to `bpp` bits (R125). -/
abbrev maskedPixels (bpp : BitVec 4) (pixels : List Byte) : List Nat := pixels.map (fun x => (maskPixel bpp x).toNat)

section Session

variable {base s t : State} {n k held : Nat} {total rest : List Bool} {p : Config.Params} {bpp : BitVec 4}
  {entries : List ((Nat × Nat) × Nat)}

/-! ### The end of a session -/

/-- The quota spent, the last match and the end code are emitted and everything is sent (R131). -/
theorem Follows.terminate (h : Follows p bpp held entries s) (hp : p.Valid) (hq : s.quota = 0)
    (ho : Owing base n total (codeBits (Wire.codesFrom p bpp.toNat held entries [])) s) :
    ∃ t, terminate s = .done (retire t) ∧ t.bpp = bpp ∧
      Acknowledged base n (Wire.blocks (Wire.bitsBytes total)) t := by
  rw [Wire.codesFrom, codeBits, List.flatMap_cons, List.flatMap_singleton] at ho
  obtain ⟨u, hemit, hgrown, _, hu⟩ := h.emitData hp ho
  obtain ⟨_, hspecial⟩ := hgrown.counted.special
  rw [← hspecial, ← List.append_nil (Wire.valueBits _ _)] at hu
  obtain ⟨v, hend, hk, hv⟩ := hgrown.emitSpecial (by omega) hu
  obtain ⟨t, hflush, hk', hsent⟩ := hv.flush
  refine ⟨t, ?_, ((hgrown.counted.of_kept hk).of_kept hk').bppIs, hsent⟩
  rw [Machine.terminate, if_pos hq, hemit, andThen_done, hend, andThen_done, hflush, andThen_done]

/-- The response after the last pixel shows `bpp` and done (R82). -/
theorem respondOk_retire (t : State) : (respondOk (retire t)).response = some (t.bpp ++ 0b1000#4) := by
  have hword : ∀ b : BitVec 4, b ++ BitVec.ofBool true ++ (0 : BitVec 3) = b ++ 0b1000#4 := by decide
  exact congrArg some (hword t.bpp)

theorem Follows.completed (h : Follows p bpp held entries s) (hp : p.Valid) (hq : s.quota = 0)
    (ho : Owing base n total (codeBits (Wire.codesFrom p bpp.toNat held entries [])) s) :
    Completed base n total bpp (pushEnd (.done s)) := by
  obtain ⟨t, hterm, rfl, hsent⟩ := h.terminate hp hq ho
  rw [pushEnd, andThen_done, hterm, andThen_done, finish_done]
  exact ⟨rfl, hsent.congr rfl rfl rfl, respondOk_retire t⟩

/-! ### The commands -/

theorem pushEnd_of_quota (hq : s.quota ≠ 0) : pushEnd (.done s) = respondOk s := by
  rw [pushEnd, andThen_done, Machine.terminate, if_neg hq, andThen_done, finish_done]

theorem exec_push_of_pixel {pixel : Byte} (ho : s.fsm = .awaitFirst ∨ s.fsm = .matching)
    (h : pushPixel (maskPixel s.bpp pixel) (countPixel s) = .ok (.done t)) :
    exec (.push pixel) s = .next (pushEnd (.done t)) := by
  obtain ⟨hclosed, hdone⟩ : ¬ (s.fsm = .idle ∨ s.fsm = .poisoned) ∧ s.fsm ≠ .flushed := by
    rcases ho with ho | ho <;> simp [ho]
  rw [exec, execPush, if_neg hclosed, if_neg hdone, pushSession, h]

theorem countPixel_quota_toNat (hq : s.quota.toNat = k + 1) : (countPixel s).quota.toNat = k := by
  have hne : s.quota ≠ 0 := fun h0 => by simp [h0] at hq
  rw [countPixel_quota, if_neg hne, BitVec.toNat_sub_of_le (by rw [BitVec.le_def]; simp; omega), hq]
  rfl

theorem execAll_cons_of_next {i : Instr} {rest : List Instr} (h : exec i s = .next t) :
    execAll (i :: rest) s = execAll rest t := by
  rw [execAll, h]

/-- From a running match with the quota of the pixels to come, the PUSHes complete the session as the reference has
it. -/
theorem Follows.pushes {pixels : List Byte} (h : Follows p bpp held entries s) (hp : p.Valid)
    (hq : s.quota.toNat = pixels.length)
    (ho : Owing base n total (codeBits (Wire.codesFrom p bpp.toNat held entries (maskedPixels bpp pixels))) s) :
    ∃ t, execAll (pixels.map .push) (pushEnd (.done s)) = .next t ∧ Completed base n total bpp t := by
  induction pixels generalizing s held entries with
  | nil => exact ⟨_, rfl, h.completed hp (BitVec.eq_of_toNat_eq hq) ho⟩
  | cons x rest ih =>
    have hne : s.quota ≠ 0 := fun h0 => by simp [h0] at hq
    have hcounted : Follows p bpp held entries (countPixel (respondOk s)) :=
      ⟨h.matching, h.counted.congr rfl rfl rfl rfl rfl, h.width.congr ⟨rfl, rfl, rfl⟩ rfl rfl rfl, h.strings.congr rfl,
        h.heldIs, h.heldLow⟩
    obtain ⟨t, held', entries', hpush, ht, hot, hquota⟩ :=
      hcounted.pixel hp (maskPixel_lt bpp x) (ho.congr ⟨rfl, rfl, rfl⟩ ⟨rfl, rfl⟩ rfl)
    rw [← h.counted.bppIs] at hpush
    have hexec : exec (.push x) (respondOk s) = .next (pushEnd (.done t)) :=
      exec_push_of_pixel (.inr h.matching) hpush
    rw [pushEnd_of_quota hne, List.map_cons, execAll_cons_of_next hexec]
    refine ih ht ?_ hot
    rw [hquota]
    exact countPixel_quota_toNat (s := respondOk s) hq

/-- From a session just begun the PUSHes complete it as the reference has it (R126). -/
theorem Begun.pushes {x : Byte} {pixels : List Byte} (h : Begun p bpp s) (hp : p.Valid)
    (hq : s.quota.toNat = pixels.length + 1)
    (ho : Owing base n total
      (codeBits (Wire.codesFrom p bpp.toNat (maskPixel bpp x).toNat [] (maskedPixels bpp pixels))) s) :
    ∃ t, execAll ((x :: pixels).map .push) s = .next t ∧ Completed base n total bpp t := by
  have hfollows : Follows p bpp (maskPixel bpp x).toNat [] (pushFirst (maskPixel bpp x) (countPixel s)) :=
    .of_clear rfl (h.counted.congr rfl rfl rfl rfl rfl) (h.width.congr ⟨rfl, rfl, rfl⟩ rfl rfl rfl)
      (h.strings.congr rfl) rfl (maskPixel_lt bpp x)
  have hpush : pushPixel (maskPixel s.bpp x) (countPixel s) =
      .ok (.done (pushFirst (maskPixel bpp x) (countPixel s))) := by
    rw [pushPixel, if_pos (show (countPixel s).fsm = .awaitFirst from h.first), h.counted.bppIs]
  rw [List.map_cons, execAll_cons_of_next (exec_push_of_pixel (.inl h.first) hpush)]
  exact hfollows.pushes hp (countPixel_quota_toNat hq) (ho.congr ⟨rfl, rfl, rfl⟩ ⟨rfl, rfl⟩ rfl)

/-- Of a session just opened every bit is owing (R123). -/
theorem openSession_owing {req : BitVec 4} {quota : BitVec 32} (ha : answersOk n s)
    (hroom : total.length + 2040 ≤ 2040 * n) : Owing s n total total (openSession req quota s) := by
  have hheld : heldBytes (openSession req quota s) = [] :=
    heldBytes_bufEmpty (forgetPrefix (loadSession req quota s))
  have hpacker : PackerRegs (openSession req quota s) :=
    ⟨(by decide : (0 : BitVec 5).toNat ≤ 7), (by decide : (0 : BitVec 19).toNat < 2 ^ (0 : BitVec 5).toNat)⟩
  refine ⟨hroom, hpacker, ⟨[], [], by simp, (Acknowledged.refl ha).congr rfl rfl rfl, ?_⟩, ?_⟩
  · rw [hheld]
    rfl
  · rw [Wire.bitsSoFar, Wire.payloadSoFar, hheld, List.append_nil]
    exact congrArg (· ++ total) (List.append_nil _).symm

/-- BEGIN opens the session and emits its clear code (R123). -/
theorem execBegin_begun {req : BitVec 4} {quota : BitVec 32} (hf : s.fsm = .idle ∨ s.fsm = .flushed)
    (hp : s.params.Valid) (hreq : req.toNat ≤ 8) (hquota : quota ≠ 0)
    (ho : Owing base n total
      (Wire.valueBits ((effectiveBpp req).toNat + 1) (2 ^ (effectiveBpp req).toNat) ++ rest)
      (openSession req quota s)) :
    ∃ t, exec (.begin req quota) s = .next t ∧ Begun s.params (effectiveBpp req) t ∧ t.quota = quota ∧
      Owing base n total rest t := by
  have hregs : SessionRegs (bufEmpty (forgetPrefix (loadSession req quota s))) :=
    (openSession_regs hreq quota s).congr rfl rfl rfl
  obtain ⟨hcounted, hwidth, hstrings⟩ : Counted s.params (effectiveBpp req) 0 (openSession req quota s) ∧
      WidthRegs (openSession req quota s) ∧
      Mirrors (2 ^ (effectiveBpp req).toNat + 2) [] (openSession req quota s) :=
    clear_counted (s := bufEmpty (forgetPrefix (loadSession req quota s))) hp hregs
  obtain ⟨hclear, _⟩ := hcounted.special
  obtain ⟨_, hbits, _⟩ :
      _ ∧ (openSession req quota s).runningBits.toNat = (effectiveBpp req).toNat + 1 ∧ _ :=
    wcInit_spec (s := bufEmpty (forgetPrefix (loadSession req quota s))) (Nat.le_trans hregs.bppHigh (by decide))
  rw [← hbits, ← hclear] at ho
  obtain ⟨u, hpack, hk, hu⟩ := ho.pack (hwidth.bits_le hp)
    (hwidth.code_fits (by rw [hclear, hcounted.codeIs]; omega))
  have hexec : exec (.begin req quota) s = .next (respondOk u) := by
    rw [exec, execBegin, if_neg (by rcases hf with hf | hf <;> simp [hf]), if_neg (Nat.not_lt.mpr hreq), if_neg hquota,
      beginSession, emitSpecial, hpack, andThen_done, finish_done]
  exact ⟨respondOk u, hexec,
    ⟨hk.fsm, (hcounted.of_kept hk).congr rfl rfl rfl rfl rfl, (hwidth.of_kept hk).congr ⟨rfl, rfl, rfl⟩ rfl rfl rfl,
      hstrings.congr hk.dict⟩,
    hk.quota.trans (loadedQuota_eq hp quota), hu.congr ⟨rfl, rfl, rfl⟩ ⟨rfl, rfl⟩ rfl⟩

end Session

/-- A session's bits fit the SUBBLOCKs of its payload (R74, R75). -/
theorem length_le_blocks_bitsBytes (bits : List Bool) :
    bits.length + 2040 ≤ 2040 * (Wire.blocks (Wire.bitsBytes bits)).length := by
  have hbytes := Wire.bitsBytes_length bits
  have hblocks := Wire.length_le_subblocks (Nat.le_refl (Wire.bitsBytes bits).length)
  rw [Wire.blocks, List.length_append, List.length_singleton]
  omega

/-- Settles O35: BEGIN opens a session that owes every bit of the reference, and the PUSHes emit them all. -/
theorem sessionWritesItsCodes : Obligations.SessionWritesItsCodes := by
  intro req pixels s expected hf hp hreq hne hlen hexpected hanswers
  obtain ⟨x, rest, rfl⟩ := List.exists_cons_of_ne_nil hne
  rw [List.length_cons] at hlen
  have hquota : (BitVec.ofNat 32 (x :: rest).length).toNat = rest.length + 1 := by
    rw [List.length_cons, BitVec.toNat_ofNat, Nat.mod_eq_of_lt hlen]
  have hquota0 : BitVec.ofNat 32 (x :: rest).length ≠ 0 := by
    intro h0
    rw [h0] at hquota
    cases hquota
  subst hexpected
  obtain ⟨t, hbegin, hbegun, hq, ho⟩ := execBegin_begun hf hp hreq hquota0
    (openSession_owing hanswers (length_le_blocks_bitsBytes _))
  obtain ⟨u, hpushes, hdone⟩ := hbegun.pushes hp (hq ▸ hquota) ho
  refine ⟨u, ?_, hdone.fsm, hdone.sent.trace, hdone.sent.stream, hdone.response⟩
  rw [sessionCommands, execAll_cons_of_next hbegin, hpushes]

end Sys2Proof.Machine
end

section
/-!
PROOF. The words of the core field by field (spec/30_encoding.md R80, R83 to R89): the decoder reads every operation from
its fields whatever the ignored ones hold, and so from the encoder's word.
-/

namespace Sys2Proof

/-! ### The fields of a word -/

section Fields

variable {a b c : Nat} (x : BitVec a) (y : BitVec b) (z : BitVec c)

theorem extractLsb'_append_high : (x ++ y ++ z).extractLsb' (b + c) a = x := by
  rw [BitVec.extractLsb'_append_eq_of_le (Nat.le_add_left c b), Nat.add_sub_cancel, BitVec.extractLsb'_append_eq_left]

theorem extractLsb'_append_middle : (x ++ y ++ z).extractLsb' c b = y := by
  rw [BitVec.extractLsb'_append_eq_of_le (Nat.le_refl c), Nat.sub_self, BitVec.extractLsb'_append_eq_right]

end Fields

/-! ### The command word (R80) -/

theorem decodeCw_begin (req : BitVec 4) (quota : BitVec 32) :
    decodeCw (0x1#4 ++ req ++ quota) = .ok (.begin req quota) := by
  have hopc : (0x1#4 ++ req ++ quota).extractLsb' 36 4 = 0x1#4 := extractLsb'_append_high _ _ _
  have hreq : (0x1#4 ++ req ++ quota).extractLsb' 32 4 = req := extractLsb'_append_middle _ _ _
  have hquota : (0x1#4 ++ req ++ quota).extractLsb' 0 32 = quota := BitVec.extractLsb'_append_eq_right
  rw [decodeCw, hopc, hreq, hquota, if_pos rfl]

theorem decodeCw_push (ignored : BitVec 28) (pixel : Byte) :
    decodeCw (0x2#4 ++ ignored ++ pixel) = .ok (.push pixel) := by
  have hopc : (0x2#4 ++ ignored ++ pixel).extractLsb' 36 4 = 0x2#4 := extractLsb'_append_high _ _ _
  have hpixel : (0x2#4 ++ ignored ++ pixel).extractLsb' 0 8 = pixel := BitVec.extractLsb'_append_eq_right
  rw [decodeCw, hopc, hpixel, if_neg (by decide), if_pos rfl]

theorem decodeCw_reset (ignored : BitVec 36) : decodeCw (0x3#4 ++ ignored) = .ok .reset := by
  have hopc : (0x3#4 ++ ignored).extractLsb' 36 4 = 0x3#4 := BitVec.extractLsb'_append_eq_left
  rw [decodeCw, hopc, if_neg (by decide), if_neg (by decide), if_pos rfl]

/-! ### The dictionary request (R83) -/

theorem decodeDw_lookup (key : Key) (ignored : BitVec 12) :
    decodeDw (0b01#2 ++ key ++ ignored) = .ok (.dictLookup key) := by
  have hop : (0b01#2 ++ key ++ ignored).extractLsb' 32 2 = 0b01#2 := extractLsb'_append_high _ _ _
  have hkey : (0b01#2 ++ key ++ ignored).extractLsb' 12 20 = key := extractLsb'_append_middle _ _ _
  rw [decodeDw, hop, hkey, if_pos rfl]

theorem decodeDw_insert (key : Key) (code : Code) :
    decodeDw (0b10#2 ++ key ++ code) = .ok (.dictInsert key code) := by
  have hop : (0b10#2 ++ key ++ code).extractLsb' 32 2 = 0b10#2 := extractLsb'_append_high _ _ _
  have hkey : (0b10#2 ++ key ++ code).extractLsb' 12 20 = key := extractLsb'_append_middle _ _ _
  have hcode : (0b10#2 ++ key ++ code).extractLsb' 0 12 = code := BitVec.extractLsb'_append_eq_right
  rw [decodeDw, hop, hkey, hcode, if_neg (by decide), if_pos rfl]

theorem decodeDw_clear (ignored : BitVec 32) : decodeDw (0b11#2 ++ ignored) = .ok .dictClear := by
  have hop : (0b11#2 ++ ignored).extractLsb' 32 2 = 0b11#2 := BitVec.extractLsb'_append_eq_left
  rw [decodeDw, hop, if_neg (by decide), if_neg (by decide), if_pos rfl]

/-! ### The packer request (R85) -/

theorem decodePw_emitData (code : Code) : decodePw (0b01#2 ++ code) = .ok (.pkEmitData code) := by
  have hop : (0b01#2 ++ code).extractLsb' 12 2 = 0b01#2 := BitVec.extractLsb'_append_eq_left
  have hcode : (0b01#2 ++ code).extractLsb' 0 12 = code := BitVec.extractLsb'_append_eq_right
  rw [decodePw, hop, hcode, if_pos rfl]

theorem decodePw_emitSpecial (code : Code) : decodePw (0b10#2 ++ code) = .ok (.pkEmitSpecial code) := by
  have hop : (0b10#2 ++ code).extractLsb' 12 2 = 0b10#2 := BitVec.extractLsb'_append_eq_left
  have hcode : (0b10#2 ++ code).extractLsb' 0 12 = code := BitVec.extractLsb'_append_eq_right
  rw [decodePw, hop, hcode, if_neg (by decide), if_pos rfl]

theorem decodePw_flush (ignored : BitVec 12) : decodePw (0b11#2 ++ ignored) = .ok .pkFlush := by
  have hop : (0b11#2 ++ ignored).extractLsb' 12 2 = 0b11#2 := BitVec.extractLsb'_append_eq_left
  rw [decodePw, hop, if_neg (by decide), if_neg (by decide), if_pos rfl]

/-! ### The framer request (R86) and the sink's transaction (R87) -/

theorem decodeFw_put (byte : Byte) : decodeFw (0b01#2 ++ byte) = .ok (.sbPut byte) := by
  have hop : (0b01#2 ++ byte).extractLsb' 8 2 = 0b01#2 := BitVec.extractLsb'_append_eq_left
  have hbyte : (0b01#2 ++ byte).extractLsb' 0 8 = byte := BitVec.extractLsb'_append_eq_right
  rw [decodeFw, hop, hbyte, if_pos rfl]

theorem decodeFw_terminate (ignored : BitVec 8) : decodeFw (0b10#2 ++ ignored) = .ok .sbTerminate := by
  have hop : (0b10#2 ++ ignored).extractLsb' 8 2 = 0b10#2 := BitVec.extractLsb'_append_eq_left
  rw [decodeFw, hop, if_neg (by decide), if_pos rfl]

/-- The length byte of a frame counts its payload, at most 255 bytes of it (R75). -/
theorem frame_length_toNat {payload : List Byte} (h : payload.length ≤ Config.sbMax) :
    (BitVec.ofNat 8 payload.length).toNat = payload.length := by
  rw [BitVec.toNat_ofNat, Nat.mod_eq_of_lt (Nat.lt_succ_of_le h)]

theorem decodeSw_frame {payload : List Byte} (h : payload.length ≤ Config.sbMax) :
    decodeSw (frame payload) = .ok (.sinkWrite payload) := by
  rw [frame, decodeSw, if_pos (frame_length_toNat h).symm]

/-- Settles O1: the decoder reads each word of the encoder, whose ignored fields are 0. -/
theorem encodedInstructionDecodes : Obligations.EncodedInstructionDecodes := by
  intro i hwf
  cases i with
  | begin req quota => exact decodeCw_begin req quota
  | push pixel => exact decodeCw_push 0 pixel
  | reset => exact decodeCw_reset 0
  | dictLookup key => exact decodeDw_lookup key 0
  | dictInsert key code => exact decodeDw_insert key code
  | dictClear => exact decodeDw_clear 0
  | wcInit => rfl
  | wcAdvance => rfl
  | wcGrow => rfl
  | pkEmitData code => exact decodePw_emitData code
  | pkEmitSpecial code => exact decodePw_emitSpecial code
  | pkFlush => exact decodePw_flush 0
  | sbPut byte => exact decodeFw_put byte
  | sbTerminate => exact decodeFw_terminate 0
  | sinkWrite payload => exact decodeSw_frame (of_decide_eq_true hwf)

/-- Settles O4: the operations with an ignored field, read whatever it holds. -/
theorem ignoredFieldsHaveNoEffect : Obligations.IgnoredFieldsHaveNoEffect :=
  ⟨decodeCw_push, decodeCw_reset, decodeDw_lookup, decodeDw_clear, decodePw_flush, decodeFw_terminate⟩

/-- Settles O2: eleven words of the spec, decoded by evaluation. -/
theorem specWordsDecode : Obligations.SpecWordsDecode :=
  ⟨rfl, rfl, rfl, rfl, rfl, rfl, rfl, rfl, rfl, rfl, rfl⟩

end Sys2Proof
end

section
/-!
PROOF. Command words and operands at the machine (spec/30_encoding.md R79, R81, R82, R84, R88): the width request without
an operand and the scheduled width, the reserved opcodes, the masking of a pixel, and the fields of the response word.
-/

namespace Sys2Proof.Machine

/-! ### The code width (R79, R84) -/

/-- Settles O3: the four words, and that WC.INIT makes the same widths of the same `bpp` and `eofCode`. -/
theorem widthRequestWords : Obligations.WidthRequestWords := by
  refine ⟨rfl, rfl, rfl, rfl, fun s t u v hu hv hbpp heof hlow => ?_⟩
  cases hu
  cases hv
  exact wcInit_width hbpp heof (Nat.le_of_lt_succ hlow)

/-- Settles O47: `runningCode` is the first string code and one more for each string assigned, so the width invariant
puts the register at the scheduled width. -/
theorem widthFollowsSchedule : Obligations.WidthFollowsSchedule := by
  intro s _ hregs hwidth
  have heof := hregs.eofIs
  have hcode := hwidth.codeLow
  exact (hwidth.scheduled (by omega)).symm

/-! ### Commands and operands (R81, R88) -/

theorem readCommand_of_reserved {w : BitVec 40} (h : isReserved w) : readCommand w = .illegalCommand := by
  obtain ⟨h1, h2, h3⟩ := h
  rw [readCommand, decodeCw, if_neg h1, if_neg h2, if_neg h3]

/-- An error other than SinkWriteFailure writes control state and response alone (R206). -/
theorem raiseError_refusedBy {k : ErrorKind} (hk : k ≠ .sinkWriteFailure) (s : State) :
    refusedBy k s (raiseError k s) := by
  refine ⟨raiseError_control k s, ?_⟩
  cases k with
  | sinkWriteFailure => exact absurd rfl hk
  | dataOverrun | stateMisuse | allocationFailure =>
    exact ⟨⟨rfl, rfl, rfl, rfl, rfl⟩, ⟨rfl, rfl, rfl⟩, ⟨rfl, rfl⟩, fun _ => rfl, fun _ => rfl, ⟨rfl, rfl, rfl⟩,
      ⟨rfl, rfl, rfl⟩, rfl⟩

/-- Settles O6: a reserved opcode is read as an illegal command, which raises StateMisuse. -/
theorem reservedOpcodePoisons : Obligations.ReservedOpcodePoisons := by
  intro s w rest hr hi hw
  exact ⟨_, step_of_illegal hr hi (readCommand_of_reserved hw), raiseError_refusedBy (by decide) _⟩

/-- Settles O14: PUSH uses its operand through the mask alone, and masking twice is masking once. -/
theorem pushMasksPixel : Obligations.PushMasksPixel := by
  intro pixel s
  refine ⟨maskPixel_toNat s.bpp pixel, ?_⟩
  simp only [exec, execPush, pushSession, maskPixel_idem]

/-! ### The response word (R82) -/

theorem showsBpp_iff (s : State) :
    showsBpp s = true ↔ s.fsm = .awaitFirst ∨ s.fsm = .matching ∨ s.fsm = .flushed := by
  simp [showsBpp, or_assoc]

section Response

variable (s : State) (status : Option ErrorKind)

theorem responseWord_bpp : (responseWord s status).extractLsb' 4 4 = if showsBpp s then s.bpp else 0#4 :=
  extractLsb'_append_high _ _ _

theorem responseWord_done : (responseWord s status).getLsbD 3 = isDone s := by
  rw [responseWord, BitVec.getLsbD_append, if_neg (by decide), BitVec.getLsbD_append, if_pos (by decide)]
  cases isDone s <;> rfl

theorem responseWord_status : (responseWord s status).extractLsb' 0 3 = statusCode status :=
  BitVec.extractLsb'_append_eq_right

end Response

/-- Settles O59: the three fields, each by what it is computed from. -/
theorem responseWordFields : Obligations.ResponseWordFields := by
  intro s status
  refine ⟨?bpp, ?done, ?status⟩
  case bpp => simp only [responseWord_bpp, showsBpp_iff]; rfl
  case done => rw [responseWord_done, isDone, beq_eq_decide]
  case status =>
    rw [responseWord_status]
    cases status with
    | none => rfl
    | some k => cases k <;> rfl

end Sys2Proof.Machine
end

section
/-!
PROOF. The dictionary's operations as steps of their own (spec/40_dictionary.md R101 to R103): what each does to the map
and to the reply, and that it changes nothing else.
-/

namespace Sys2Proof.Machine

/-- A reply changes nothing of the core, the sink or the host (R83). -/
theorem reply_sameCore (found : Option Code) (s : State) : sameCore s (reply found s) :=
  ⟨⟨rfl, rfl⟩, ⟨rfl, rfl, rfl, rfl, rfl⟩, ⟨rfl, rfl, rfl⟩, ⟨rfl, rfl⟩, fun _ => rfl, fun _ => rfl, ⟨rfl, rfl, rfl⟩,
    ⟨rfl, rfl, rfl⟩⟩

/-- A reply without a hit shows hit 0 and some code (R83, U9). -/
theorem reply_none (s : State) : ∃ c : Code, (reply none s).dictReply = some (0#1 ++ c) := ⟨_, rfl⟩

/-- Settles O38: the reply is what the read of the key answers, and a reply changes nothing. -/
theorem dictLookupAnswers : Obligations.DictLookupAnswers := by
  intro key s
  refine ⟨reply (dictRead s key) s, rfl, fun c hit => ?hit, fun hmiss => ?miss, reply_sameCore _ s, rfl⟩
  case hit =>
    rw [hit]
    rfl
  case miss =>
    rw [hmiss]
    exact reply_none s

theorem execDictInsert_of_absent {key : Key} {s : State} (code : Code) (hmiss : dictRead s key = none)
    (hroom : s.dict.length < s.params.lzMaxCode) :
    exec (.dictInsert key code) s = .next (reply none (dictPut key code s)) := by
  have hw : dictWrite key code s = .ok (dictPut key code s) := by
    rcases dictWrite_cases key code s with ⟨_, _, hw⟩ | ⟨_, hfull, _⟩ | ⟨hhit, _⟩
    · exact hw
    · exact absurd hroom (Nat.not_lt.mpr hfull)
    · exact absurd hmiss hhit
  rw [exec, execDictInsert, hw]

/-- Settles O39: within the preconditions the map gains the entry, and the reply changes nothing. -/
theorem dictInsertGainsEntry : Obligations.DictInsertGainsEntry := by
  intro key code s hmiss hroom
  refine ⟨_, execDictInsert_of_absent code hmiss hroom, storeGet_put_same _ _ _, fun other hne => ?other,
    storePut_length hmiss code, reply_none _, ⟨rfl, rfl⟩, ⟨rfl, rfl, rfl, rfl, rfl⟩, ⟨rfl, rfl, rfl⟩, ⟨rfl, rfl⟩,
    fun _ => rfl, ⟨rfl, rfl, rfl⟩, ⟨rfl, rfl, rfl⟩, rfl⟩
  case other => exact storeGet_put_other _ _ _ fun heq => hne (BitVec.eq_of_toNat_eq heq)

/-- Settles O41: the map is empty, and nothing else of the core changes. -/
theorem dictClearEmpties : Obligations.DictClearEmpties := by
  intro s
  exact ⟨reply none (dictClearAll s), rfl, fun _ => rfl, rfl, reply_none _, ⟨rfl, rfl⟩, ⟨rfl, rfl, rfl, rfl, rfl⟩,
    ⟨rfl, rfl, rfl⟩, ⟨rfl, rfl⟩, fun _ => rfl, ⟨rfl, rfl, rfl⟩, ⟨rfl, rfl, rfl⟩, rfl⟩

end Sys2Proof.Machine
end

section
/-!
PROOF. The pseudo-instructions of a script (spec/30_encoding.md R90, R91): a list of pixels assembles to its PUSHes if
every pixel fits, and not at all otherwise.
-/

namespace Sys2Proof.Machine.Script

section Pixels

variable {pixels : List Nat}

theorem assemblePushes_of_fit (h : ∀ p ∈ pixels, p < 2 ^ 8) :
    pixels.mapM assemblePush = some (pixels.map fun p => .push (BitVec.ofNat 8 p)) := by
  induction pixels with
  | nil => rfl
  | cons p rest ih =>
    obtain ⟨hp, hrest⟩ := List.forall_mem_cons.mp h
    rw [List.mapM_cons, ih hrest, assemblePush, if_pos hp]
    rfl

theorem assemblePushes_of_oversized (h : ∃ p ∈ pixels, 2 ^ 8 ≤ p) : pixels.mapM assemblePush = none := by
  induction pixels with
  | nil => simp at h
  | cons p rest ih =>
    obtain ⟨q, hq, hover⟩ := h
    rw [List.mapM_cons]
    rcases List.mem_cons.mp hq with rfl | hq
    · rw [assemblePush, if_neg (Nat.not_lt.mpr hover)]
      rfl
    · rw [ih ⟨q, hq, hover⟩]
      cases assemblePush p <;> rfl

end Pixels

/-- Settles O60: PUSHN is the list of its pixels assembled, IMAGE has a BEGIN before it. -/
theorem pseudoInstructionsExpand : Obligations.PseudoInstructionsExpand := by
  intro bpp pixels
  refine ⟨fun hfit => ⟨assemblePushes_of_fit hfit, fun hbpp hlen => ?image⟩, fun hover => ⟨?pushN, ?oversized⟩⟩
  case image =>
    rw [assemble, assembleBegin, if_pos ⟨hbpp, hlen⟩, assemblePushes_of_fit hfit, sessionCommands, List.length_map,
      List.map_map]
    rfl
  case pushN => exact assemblePushes_of_oversized hover
  case oversized =>
    rw [assemble, assemblePushes_of_oversized hover]
    cases assembleBegin bpp pixels.length <;> rfl

end Sys2Proof.Machine.Script
end

section
/-!
PROOF. Every transaction ever written is a SUBBLOCK or the TERMINATOR (spec/30_encoding.md R75, R76, R87,
spec/44_subblock_framer.md R184): each write of the sink is the frame of a payload of at most 255 bytes.
-/

namespace Sys2Proof.Machine

/-- Every transaction has its shape where the operation ends, completed or not. -/
abbrev Run.KeepsFraming (r : Run) : Prop := r.Ends TraceFramed TraceFramed

/-- The frame of at most 255 bytes is a SUBBLOCK, or the TERMINATOR where there is none (R75, R76). -/
theorem frame_isTransaction {payload : List Byte} (h : payload.length ≤ Config.sbMax) :
    Wire.isTransaction (frame payload) = true := by
  cases payload with
  | nil => rfl
  | cons b rest =>
    have hlen : (BitVec.ofNat 8 (b :: rest).length).toNat = (b :: rest).length := frame_length_toNat h
    have hsub : Wire.isSubblock (frame (b :: rest)) = true := by
      rw [frame, Wire.isSubblock, hlen, beq_self_eq_true, Bool.and_true, bne_iff_ne]
      intro h0
      rw [h0] at hlen
      cases hlen
    rw [Wire.isTransaction, hsub, Bool.true_or]

theorem heldBytes_length_le (s : State) : (heldBytes s).length ≤ Config.sbMax := by
  rw [heldBytes_length]
  exact Nat.le_of_lt_succ s.sbCount.isLt

/-- An operation the decoder reads from a port is well-formed (R87). -/
theorem wellFormed_of_decode {w : Word} {i : Instr} (h : decode w = .ok i) : wellFormed i = true := by
  cases i with
  | sinkWrite payload => exact Laws.DecodedWellFormed.sinkWrite payload w h
  | _ => rfl

section Framing

variable {s t : State}

theorem raiseError_framed (k : ErrorKind) (h : TraceFramed s) : TraceFramed (raiseError k s) := by
  rw [TraceFramed, (raiseError_outside k s).1]
  exact h

theorem finish_framed {r : Run} (h : r.KeepsFraming) : TraceFramed (finish r) :=
  finish_of_ends h (fun _ ht => ht) fun k _ ht => raiseError_framed k ht

/-! ### The sink and the framer -/

/-- The one place where the trace grows (R183). -/
theorem sinkAnswered_framed {payload : List Byte} (hlen : payload.length ≤ Config.sbMax) (h : TraceFramed s) :
    TraceFramed (sinkAnswered (frame payload) s) :=
  List.forall_mem_append.mpr ⟨h, List.forall_mem_singleton.mpr (frame_isTransaction hlen)⟩

theorem sinkWrite_framing {payload : List Byte} (hlen : payload.length ≤ Config.sbMax) (h : TraceFramed s) :
    (sinkWrite (frame payload) s).KeepsFraming := by
  have hsent := sinkAnswered_framed hlen h
  rcases sinkWrite_cases (frame payload) s with ⟨_, hw⟩ | ⟨_, hw⟩ <;> rw [hw] <;> exact hsent

theorem heldBlock_framed (h : TraceFramed s) : TraceFramed (sinkAnswered (heldBlock s) s) := by
  rw [heldBlock_frame]
  exact sinkAnswered_framed (heldBytes_length_le s) h

theorem putByte_framed (b : Byte) (h : TraceFramed s) : TraceFramed (putByte b s) := by
  unfold putByte bufWrite
  split <;> exact h

theorem sbPut_framing (b : Byte) (s : State) (h : TraceFramed s) : (sbPut b s).KeepsFraming := by
  have hsent := heldBlock_framed h
  rcases sbPut_cases b s with ⟨_, hp⟩ | ⟨_, _, hp⟩ | ⟨_, _, hp⟩ <;> rw [hp]
  · exact putByte_framed b h
  · exact putByte_framed b (s := bufEmpty (sinkAnswered (heldBlock s) s)) hsent
  · exact hsent

theorem flushPartial_framing (h : TraceFramed s) : (flushPartial s).KeepsFraming := by
  have hsent := heldBlock_framed h
  rcases flushPartial_cases s with ⟨_, hp⟩ | ⟨_, _, hp⟩ | ⟨_, _, hp⟩ <;> rw [hp]
  · exact h
  · exact hsent
  · exact hsent

theorem sbTerminate_framing (h : TraceFramed s) : (sbTerminate s).KeepsFraming :=
  (flushPartial_framing h).andThen fun _ ht => sinkWrite_framing (payload := []) (Nat.zero_le _) ht

/-! ### The packer -/

theorem extractWhile_framing (least turns : Nat) (h : TraceFramed s) : (extractWhile least turns s).KeepsFraming :=
  extractWhile_ends sbPut_framing (fun _ ht => ht) least turns h

theorem pack_framing (c : Code) (h : TraceFramed s) : (pack c s).KeepsFraming :=
  extractWhile_framing 8 3 (s := shiftIn c s) h

theorem wcGrow_framed (h : TraceFramed s) : TraceFramed (wcGrow s) := by
  rcases wcGrow_cases s with ⟨_, _, hg⟩ | ⟨_, hg⟩ <;> rw [hg] <;> exact h

theorem emitData_framing (c : Code) (h : TraceFramed s) : (emitData c s).KeepsFraming :=
  (pack_framing c h).andThen fun _ ht => wcGrow_framed ht

theorem flush_framing (h : TraceFramed s) : (flush s).KeepsFraming :=
  (extractWhile_framing 1 4 h).andThen fun _ ht => sbTerminate_framing ht

/-! ### The commands and the step -/

theorem execBegin_framed {req : BitVec 4} {quota : BitVec 32} (h : TraceFramed s)
    (he : execBegin req quota s = .next t) : TraceFramed t := by
  have hsession : (beginSession req quota s).KeepsFraming :=
    (pack_framing _ (s := openSession req quota s) h).andThen fun _ ht => ht
  unfold execBegin at he
  split_ifs at he <;> cases he
  · exact raiseError_framed _ h
  · exact raiseError_framed _ h
  · exact raiseError_framed _ h
  · exact finish_framed hsession

theorem dictWrite_framed {key : Key} {code : Code} (h : TraceFramed s) (hw : dictWrite key code s = .ok t) :
    TraceFramed t := by
  rcases dictWrite_cases key code s with ⟨_, _, hd⟩ | ⟨_, _, hd⟩ | ⟨_, hd⟩ <;> rw [hd] at hw <;> cases hw
  exact h

theorem pushInsert_framing {key : Key} {r : Run} (h : TraceFramed s) (hr : pushInsert key s = .ok r) :
    r.KeepsFraming := by
  unfold pushInsert at hr
  split at hr
  · cases hr
  · next u hw =>
    have hu : TraceFramed u := dictWrite_framed h hw
    cases hr
    exact hu

theorem pushSaturated_framing (h : TraceFramed s) : (pushSaturated s).KeepsFraming :=
  (pack_framing _ h).andThen fun _ ht => ht

theorem pushMiss_framing {p : Byte} {r : Run} (h : TraceFramed s) (hr : pushMiss p s = .ok r) : r.KeepsFraming := by
  have hdata := emitData_framing s.pendingPrefix h
  cases hrun : emitData s.pendingPrefix s with
  | raised k u =>
    rw [hrun] at hdata
    rw [pushMiss_of_raised hrun] at hr
    cases hr
    exact hdata
  | done u =>
    rw [hrun] at hdata
    rw [pushMiss_of_done hrun] at hr
    split_ifs at hr
    · cases hr
      exact pushSaturated_framing (s := setPrefix (pixelCode p) u) hdata
    · exact pushInsert_framing (s := setPrefix (pixelCode p) u) hdata hr

theorem pushPixel_framing {p : Byte} {r : Run} (h : TraceFramed s) (hr : pushPixel p s = .ok r) : r.KeepsFraming := by
  unfold pushPixel pushMatching at hr
  split at hr
  · cases hr
    exact h
  · split at hr
    · cases hr
      exact h
    · exact pushMiss_framing h hr

theorem terminate_framing (h : TraceFramed s) : (terminate s).KeepsFraming := by
  unfold terminate
  split
  · exact (emitData_framing _ h).andThen fun _ ht => (pack_framing _ ht).andThen fun _ hu =>
      (flush_framing hu).andThen fun _ hv => hv
  · exact h

theorem execPush_framed {pixel : Byte} (h : TraceFramed s) (he : execPush pixel s = .next t) : TraceFramed t := by
  unfold execPush pushSession at he
  split_ifs at he
  · cases he
    exact raiseError_framed _ h
  · cases he
    exact raiseError_framed _ h
  · split at he
    · cases he
    · next r hr =>
      cases he
      have hpixel : r.KeepsFraming := pushPixel_framing (s := countPixel s) h hr
      exact finish_framed ((hpixel.andThen fun _ ht => terminate_framing ht).andThen fun _ ht => ht)

theorem execDictInsert_framed {key : Key} {code : Code} (h : TraceFramed s)
    (he : execDictInsert key code s = .next t) : TraceFramed t := by
  unfold execDictInsert at he
  split at he
  · cases he
  · next u hw =>
    have hu : TraceFramed u := dictWrite_framed h hw
    cases he
    exact hu

/-- Every well-formed operation, a command's or a port's, writes whole blocks alone (R184). -/
theorem exec_framed {i : Instr} (hi : wellFormed i = true) (h : TraceFramed s) (he : exec i s = .next t) :
    TraceFramed t := by
  cases i with
  | begin req quota => exact execBegin_framed h he
  | push pixel => exact execPush_framed h he
  | dictInsert key code => exact execDictInsert_framed h he
  | reset => cases he; exact h
  | dictLookup key => cases he; exact h
  | dictClear => cases he; exact h
  | wcInit => cases he; exact h
  | wcAdvance => cases he; exact h
  | wcGrow => cases he; exact wcGrow_framed h
  | pkEmitData code => cases he; exact finish_framed (emitData_framing code h)
  | pkEmitSpecial code => cases he; exact finish_framed (pack_framing code h)
  | pkFlush => cases he; exact finish_framed (flush_framing h)
  | sbPut byte => cases he; exact finish_framed (sbPut_framing byte s h)
  | sbTerminate => cases he; exact finish_framed (sbTerminate_framing h)
  | sinkWrite payload => cases he; exact finish_framed (sinkWrite_framing (of_decide_eq_true hi) h)

/-- What is fetched to run has been read by the decoder. -/
theorem wellFormed_of_fetch {i : Instr} (h : (fetch s).1 = .run i) : wellFormed i = true := by
  have hcommand : ∀ w, readCommand w = .run i → wellFormed i = true := by
    intro w hw
    unfold readCommand at hw
    split at hw <;> cases hw
    next hd => exact wellFormed_of_decode (w := .cw w) hd
  have hport : ∀ w, readPort w = .run i → wellFormed i = true := by
    intro w hw
    unfold readPort at hw
    split at hw <;> cases hw
    next hd => exact wellFormed_of_decode (w := .port w) hd
  rcases fetch_cases s with ⟨w, _, hf⟩ | ⟨_, _, hf⟩ | ⟨_, _, _, hf⟩ | ⟨w, _, _, _, hf⟩ <;> rw [hf] at h
  · exact hport w h
  · cases h
  · cases h
  · exact hcommand w h

end Framing

/-- Settles O32: fetching writes nothing, and each thing a step can do writes frames of at most 255 bytes alone. -/
theorem stepKeepsTraceFramed : Obligations.StepKeepsTraceFramed := by
  intro s t h hstep
  have hf : TraceFramed (fetch s).2 := by
    rw [TraceFramed, (fetch_silent s).1]
    exact h
  rcases step_cases hstep with ⟨_, rfl⟩ | ⟨_, rfl⟩ | ⟨i, hi, he⟩ | ⟨_, rfl⟩
  · exact hf
  · exact hf
  · exact exec_framed (wellFormed_of_fetch hi) hf he
  · exact raiseError_framed _ hf

end Sys2Proof.Machine
end

section
/-!
PROOF. DICT.INSERT outside its preconditions (spec/40_dictionary.md R103), and that no command of a session gets there
(R104, spec/41_code_emitter.md R121).
-/

namespace Sys2Proof.Machine

theorem execDictInsert_of_error {key : Key} {code : Code} {s : State} {f : Fault}
    (h : dictWrite key code s = .error f) : exec (.dictInsert key code) s = .fault f := by
  rw [exec, execDictInsert, h]

/-- Settles O40: the write fails in each of the two cases, and DICT.INSERT stops with the write's fault. -/
theorem dictInsertFaultsOutsidePreconditions : Obligations.DictInsertFaultsOutsidePreconditions := by
  intro key code s
  rcases dictWrite_cases key code s with ⟨hmiss, hroom, _⟩ | ⟨hmiss, _, hw⟩ | ⟨hhit, hw⟩
  · exact ⟨fun hhit => absurd hmiss hhit, fun _ hfull => absurd hroom (Nat.not_lt.mpr hfull)⟩
  · exact ⟨fun hhit => absurd hmiss hhit, fun _ _ => execDictInsert_of_error hw⟩
  · exact ⟨fun _ => execDictInsert_of_error hw, fun hmiss => absurd hmiss hhit⟩

/-- Settles O30: a step from a legal state is answered, whatever is presented. -/
theorem legalStateNeverStops : Obligations.LegalStateNeverStops := by
  intro s h
  obtain ⟨t, hstep, _⟩ := step_inv h
  exact ⟨t, hstep⟩

end Sys2Proof.Machine
end

section
/-!
PROOF. The organisations answer as the abstract map does (spec/40_dictionary.md R109): one induction over the sequences the
emitter can issue, for any organisation that keeps a relation to the map at every operation, and that relation for the CAM
(R106) and for the hashed SRAM (R107, R108).
-/

namespace Sys2Proof.Machine.Organisation

/-! ### The simulation -/

/-- A simulation of the abstract map: `Rel m next d` relates an organisation's memory `m` to the map `d` when `next` is the
code of the next insert; each operation keeps it, and a lookup answers what the map holds. -/
structure Simulates {σ : Type} (first limit : Nat) (answers : σ → Nat → List DictOp → List (Option Code))
    (Rel : σ → Nat → Store Code → Prop) : Prop where
  done : ∀ m next, answers m next [] = []
  clear : ∀ m next d, Rel m next d →
    ∃ m', Rel m' first [] ∧ ∀ rest, answers m next (.clear :: rest) = answers m' first rest
  lookup : ∀ m next d key rest, Rel m next d →
    answers m next (.lookup key :: rest) = storeGet d key.toNat :: answers m next rest
  insert : ∀ m next d key, Rel m next d → storeGet d key.toNat = none → next < limit →
    ∃ m', Rel m' (next + 1) (storePut d key.toNat (BitVec.ofNat 12 next)) ∧
      ∀ rest, answers m next (.insert key :: rest) = answers m' (next + 1) rest

/-- Related memories answer alike every sequence the emitter can issue (R109). -/
theorem Simulates.answers_eq {σ : Type} {first limit : Nat} {answers : σ → Nat → List DictOp → List (Option Code)}
    {Rel : σ → Nat → Store Code → Prop} (h : Simulates first limit answers Rel) {ops : List DictOp} {m : σ} {next : Nat}
    {d : Store Code} (hrel : Rel m next d) (hops : emitterIssues first limit d next ops = true) :
    answers m next ops = mapAnswers first d next ops := by
  induction ops generalizing m next d with
  | nil => exact h.done m next
  | cons op rest ih =>
    cases op with
    | clear =>
      obtain ⟨m', hrel', hm⟩ := h.clear m next d hrel
      exact (hm rest).trans (ih hrel' hops)
    | lookup key => exact (h.lookup m next d key rest hrel).trans (congrArg _ (ih hrel hops))
    | insert key =>
      simp only [emitterIssues, Bool.and_eq_true, Option.isNone_iff_eq_none, decide_eq_true_eq] at hops
      obtain ⟨⟨habsent, hroom⟩, hrest⟩ := hops
      obtain ⟨m', hrel', hm⟩ := h.insert m next d key hrel habsent hroom
      exact (hm rest).trans (ih hrel' hrest)

section MapWrites

variable {d : Store Code} {key k : Key} {code c : Code}

theorem storeGet_put_key_same : storeGet (storePut d key.toNat code) key.toNat = some code := storeGet_put_same _ _ _

theorem storeGet_put_key_other (h : k ≠ key) : storeGet (storePut d key.toNat code) k.toNat = storeGet d k.toNat :=
  storeGet_put_other _ _ _ fun heq => h (BitVec.eq_of_toNat_eq heq)

end MapWrites

/-! ### The CAM -/

section Cam

variable {cam : Cam} {first next : Nat} {key k : Key}

/-- Row `i` takes part in the comparison and holds the key (R106). -/
def rowMatches (cam : Cam) (first next : Nat) (key : Key) (i : Nat) : Bool :=
  decide (first ≤ i ∧ i < next) && cam[i]? == some key

theorem camLookup_eq : camLookup cam first next key =
    ((List.range 4096).find? (rowMatches cam first next key)).map (BitVec.ofNat 12) := rfl

theorem rowMatches_iff {i : Nat} :
    rowMatches cam first next key i = true ↔ (first ≤ i ∧ i < next) ∧ cam[i]? = some key := by
  simp [rowMatches]

theorem camInsert_row_same (h : next < 4096) : (camInsert cam next key)[next]? = some key := by
  simp [camInsert, h]

theorem camInsert_row_other {i : Nat} (h : i ≠ next) : (camInsert cam next key)[i]? = cam[i]? := by
  simp [camInsert, Vector.getElem?_setIfInBounds_ne h.symm]

/-- A clear empties the valid range and so the CAM, whatever the rows hold (R106). -/
theorem camLookup_cleared : camLookup cam first first key = none := by
  rw [camLookup_eq, Option.map_eq_none_iff, List.find?_eq_none]
  intro i _ hi
  obtain ⟨⟨hlow, hhigh⟩, _⟩ := rowMatches_iff.mp hi
  omega

/-- The rows that answer another key are the same as before the insert. -/
theorem camLookup_insert_other (hne : k ≠ key) (hnext : next < 4096) :
    camLookup (camInsert cam next key) first (next + 1) k = camLookup cam first next k := by
  have hrows : rowMatches (camInsert cam next key) first (next + 1) k = rowMatches cam first next k := by
    funext i
    rw [Bool.eq_iff_iff, rowMatches_iff, rowMatches_iff]
    by_cases hi : i = next
    · subst hi
      simp [camInsert_row_same hnext, hne.symm]
    · rw [camInsert_row_other hi]
      have hrange : i < next + 1 ↔ i < next := by omega
      rw [hrange]
  rw [camLookup_eq, camLookup_eq, hrows]

/-- The first row with the key just inserted is the new one, no earlier row having matched. -/
theorem camLookup_insert_same (hlow : first ≤ next) (hnext : next < 4096)
    (habsent : camLookup cam first next key = none) :
    camLookup (camInsert cam next key) first (next + 1) key = some (BitVec.ofNat 12 next) := by
  rw [camLookup_eq, Option.map_eq_none_iff, List.find?_eq_none] at habsent
  have hfound : (List.range 4096).find? (rowMatches (camInsert cam next key) first (next + 1) key) = some next := by
    refine List.find?_range_eq_some.mpr
      ⟨rowMatches_iff.mpr ⟨⟨hlow, Nat.lt_succ_self next⟩, camInsert_row_same hnext⟩, List.mem_range.mpr hnext, ?_⟩
    intro i hi
    rw [Bool.not_eq_true', Bool.eq_false_iff]
    intro hrow
    obtain ⟨⟨hfirst, _⟩, hkey⟩ := rowMatches_iff.mp hrow
    rw [camInsert_row_other hi.ne] at hkey
    exact habsent i (List.mem_range.mpr (hi.trans hnext)) (rowMatches_iff.mpr ⟨⟨hfirst, hi⟩, hkey⟩)
  rw [camLookup_eq, hfound]
  rfl

/-- The CAM's valid rows hold the map. -/
structure CamMirrors (first : Nat) (cam : Cam) (next : Nat) (d : Store Code) : Prop where
  low : first ≤ next
  reads : ∀ key, camLookup cam first next key = storeGet d key.toNat

theorem CamMirrors.cleared (first : Nat) (cam : Cam) : CamMirrors first cam first [] :=
  ⟨Nat.le_refl first, fun _ => camLookup_cleared⟩

theorem CamMirrors.insert {d : Store Code} (h : CamMirrors first cam next d) (habsent : storeGet d key.toNat = none)
    (hnext : next < 4096) :
    CamMirrors first (camInsert cam next key) (next + 1) (storePut d key.toNat (BitVec.ofNat 12 next)) where
  low := Nat.le_succ_of_le h.low
  reads k := by
    by_cases hk : k = key
    · subst hk
      rw [storeGet_put_key_same]
      exact camLookup_insert_same h.low hnext ((h.reads k).trans habsent)
    · rw [storeGet_put_key_other hk, camLookup_insert_other hk hnext, h.reads]

theorem cam_simulates {limit : Nat} (hlimit : limit ≤ 4096) :
    Simulates first limit (camAnswers first) (CamMirrors first) where
  done _ _ := rfl
  clear cam _ _ _ := ⟨cam, .cleared first cam, fun _ => rfl⟩
  lookup _ _ _ key _ h := by rw [camAnswers, h.reads key]
  insert _ _ _ _ h habsent hroom := ⟨_, h.insert habsent (Nat.lt_of_lt_of_le hroom hlimit), fun _ => rfl⟩

end Cam

/-- Settles O42: the valid rows hold the map at every operation, an empty range being the empty map. -/
theorem camRefinesMap : Obligations.CamRefinesMap := by
  intro first limit cam ops hlimit hops
  exact (cam_simulates hlimit).answers_eq (.cleared first cam) hops

/-! ### The hashed SRAM -/

section Sram

variable {ram : Sram} {key k : Key} {code c : Code} {turns i j : Nat}

theorem sramLookup_filled (h : ram[i]? = some (some (k, c))) : sramLookup ram key (turns + 1) i =
    if k = key then some c else sramLookup ram key turns ((i + 1) % Config.htSize) := by
  rw [sramLookup, h]

theorem sramLookup_vacant (h : ram[i]? = some none) : sramLookup ram key (turns + 1) i = none := by
  rw [sramLookup, h]

theorem sramLookup_outside (h : ram[i]? = none) : sramLookup ram key (turns + 1) i = none := by
  rw [sramLookup, h]

theorem sramInsert_filled {e : Key × Code} (h : ram[i]? = some (some e)) : sramInsert ram key code (turns + 1) i =
    sramInsert ram key code turns ((i + 1) % Config.htSize) := by
  rw [sramInsert, h]

theorem sramInsert_vacant (h : ram[i]? = some none) :
    sramInsert ram key code (turns + 1) i = ram.set i (some (key, code)) := by
  rw [sramInsert, h]

/-- What a lookup finds is in a slot. -/
theorem mem_of_sramLookup (h : sramLookup ram key turns i = some c) : some (key, c) ∈ ram := by
  induction turns generalizing i with
  | zero => cases h
  | succ turns ih =>
    match hi : ram[i]? with
    | none => rw [sramLookup_outside hi] at h; cases h
    | some none => rw [sramLookup_vacant hi] at h; cases h
    | some (some (k, c')) =>
      rw [sramLookup_filled hi] at h
      split at h
      · next hk =>
        cases h
        exact hk ▸ List.mem_of_getElem? hi
      · exact ih h

/-- A lookup that hits passes filled slots only, so filling an empty one does not disturb it. -/
theorem sramLookup_set_of_hit {e : Key × Code} (hj : ram[j]? = some none)
    (h : sramLookup ram key turns i = some c) : sramLookup (ram.set j (some e)) key turns i = some c := by
  induction turns generalizing i with
  | zero => cases h
  | succ turns ih =>
    match hi : ram[i]? with
    | none => rw [sramLookup_outside hi] at h; cases h
    | some none => rw [sramLookup_vacant hi] at h; cases h
    | some (some (k, c')) =>
      have hne : j ≠ i := by
        rintro rfl
        rw [hj] at hi
        cases hi
      rw [sramLookup_filled ((List.getElem?_set_ne hne).trans hi)]
      rw [sramLookup_filled hi] at h
      split at h
      · next hk => rw [if_pos hk, h]
      · next hk => rw [if_neg hk, ih h]

/-- An insert with an empty slot among those it probes fills one, and a lookup of the key gets there: the slots passed on
the way hold other keys. -/
theorem sramInsert_spec (hsize : ram.length = Config.htSize) (habsent : ∀ c, some (key, c) ∉ ram)
    (hi : i < Config.htSize) (hfree : ∃ u < turns, ram[(i + u) % Config.htSize]? = some none) :
    ∃ j, ram[j]? = some none ∧ sramInsert ram key code turns i = ram.set j (some (key, code)) ∧
      sramLookup (ram.set j (some (key, code))) key turns i = some code := by
  induction turns generalizing i with
  | zero => simp at hfree
  | succ turns ih =>
    obtain ⟨u, hu, hfree⟩ := hfree
    match hslot : ram[i]? with
    | none => exact absurd (List.getElem?_eq_none_iff.mp hslot) (by omega)
    | some none =>
      refine ⟨i, hslot, sramInsert_vacant hslot, ?_⟩
      rw [sramLookup_filled (List.getElem?_set_self (hsize ▸ hi)), if_pos rfl]
    | some (some (k, c)) =>
      have hu0 : u ≠ 0 := by
        rintro rfl
        rw [Nat.add_zero, Nat.mod_eq_of_lt hi, hslot] at hfree
        cases hfree
      have hahead : ((i + 1) % Config.htSize + (u - 1)) % Config.htSize = (i + u) % Config.htSize := by
        rw [Nat.mod_add_mod]
        congr 1
        omega
      obtain ⟨j, hj, hins, hget⟩ := ih (i := (i + 1) % Config.htSize) (Nat.mod_lt _ (by decide))
        ⟨u - 1, by omega, hahead ▸ hfree⟩
      have hne : j ≠ i := by
        rintro rfl
        rw [hj] at hslot
        cases hslot
      have hk : k ≠ key := by
        rintro rfl
        exact habsent c (List.mem_of_getElem? hslot)
      refine ⟨j, hj, (sramInsert_filled hslot).trans hins, ?_⟩
      rw [sramLookup_filled ((List.getElem?_set_ne hne).trans hslot), if_neg hk, hget]

/-- A whole round of probes meets every slot (R107). -/
theorem probe_reaches (hi : i < Config.htSize) (hj : j < Config.htSize) :
    ∃ u < Config.htSize, (i + u) % Config.htSize = j := by
  refine ⟨(j + Config.htSize - i) % Config.htSize, Nat.mod_lt _ (by decide), ?_⟩
  rw [Nat.add_mod_mod, Nat.add_sub_cancel' (by omega), Nat.add_mod_right, Nat.mod_eq_of_lt hj]

theorem probeStart_lt (key : Key) : probeStart key < Config.htSize := Nat.mod_lt _ (by decide)

/-- The SRAM's filled slots hold the map: one for each code assigned, none with a key the map does not hold, and each where
a lookup of its key finds it. -/
structure SramMirrors (first : Nat) (ram : Sram) (next : Nat) (d : Store Code) : Prop where
  size : ram.length = Config.htSize
  vacant : ram.count none + next = Config.htSize + first
  held : ∀ k c, some (k, c) ∈ ram → storeGet d k.toNat = some c
  found : ∀ k c, storeGet d k.toNat = some c → sramLookup ram k Config.htSize (probeStart k) = some c

variable {first next : Nat} {d : Store Code}

theorem SramMirrors.cleared (first : Nat) : SramMirrors first sramEmpty first [] where
  size := List.length_replicate
  vacant := by rw [sramEmpty, List.count_replicate_self]
  held _ _ h := absurd (List.eq_of_mem_replicate h) (Option.some_ne_none _)
  found _ _ h := by cases h

/-- No slot holds a key the map does not. -/
theorem SramMirrors.not_mem (h : SramMirrors first ram next d) (habsent : storeGet d key.toNat = none) (c : Code) :
    some (key, c) ∉ ram :=
  fun hmem => Option.some_ne_none c ((h.held key c hmem).symm.trans habsent)

/-- A lookup answers what the map holds: a hit in a slot the map accounts for, a miss only where the map has none. -/
theorem SramMirrors.reads (h : SramMirrors first ram next d) (key : Key) :
    sramLookup ram key Config.htSize (probeStart key) = storeGet d key.toNat := by
  cases hget : storeGet d key.toNat with
  | some c => exact h.found key c hget
  | none =>
    exact Option.eq_none_iff_forall_not_mem.mpr fun c hc => h.not_mem hget c (mem_of_sramLookup hc)

/-- Below the capacity the SRAM has an empty slot, and the probes of any key meet it (R107). -/
theorem SramMirrors.vacant_ahead (h : SramMirrors first ram next d) (hnext : next < 4096) (key : Key) :
    ∃ u < Config.htSize, ram[(probeStart key + u) % Config.htSize]? = some none := by
  have hpos : 0 < ram.count none := by
    have hvacant := h.vacant
    rw [Config.htSize] at hvacant
    omega
  have hsome : none ∈ ram := List.count_pos_iff.mp hpos
  obtain ⟨j, hj⟩ := List.mem_iff_getElem?.mp hsome
  obtain ⟨hlt, _⟩ := List.getElem?_eq_some_iff.mp hj
  obtain ⟨u, hu, hreach⟩ := probe_reaches (probeStart_lt key) (h.size ▸ hlt)
  exact ⟨u, hu, hreach ▸ hj⟩

/-- Filling an empty slot takes one from their number. -/
theorem count_none_set {e : Key × Code} (hj : ram[j]? = some none) :
    (ram.set j (some e)).count none + 1 = ram.count none := by
  obtain ⟨hlt, hget⟩ := List.getElem?_eq_some_iff.mp hj
  have hpos : 0 < ram.count none := List.count_pos_iff.mpr (List.mem_of_getElem? hj)
  rw [List.count_set hlt, hget, if_pos BEq.rfl, if_neg (by simp)]
  omega

theorem SramMirrors.insert (h : SramMirrors first ram next d) (habsent : storeGet d key.toNat = none)
    (hnext : next < 4096) :
    SramMirrors first (sramInsert ram key (BitVec.ofNat 12 next) Config.htSize (probeStart key)) (next + 1)
      (storePut d key.toNat (BitVec.ofNat 12 next)) := by
  have hnew := h.not_mem habsent
  obtain ⟨j, hj, hins, hget⟩ := sramInsert_spec (code := BitVec.ofNat 12 next) h.size hnew (probeStart_lt key)
    (h.vacant_ahead hnext key)
  rw [hins]
  refine ⟨List.length_set.trans h.size, ?vacant, ?held, ?found⟩
  case vacant =>
    have hcount := count_none_set (e := (key, BitVec.ofNat 12 next)) hj
    have hvacant := h.vacant
    omega
  case held =>
    intro k c hmem
    rcases List.mem_or_eq_of_mem_set hmem with hold | heq
    · have hk : k ≠ key := by
        rintro rfl
        exact hnew c hold
      rw [storeGet_put_key_other hk]
      exact h.held k c hold
    · cases heq
      exact storeGet_put_key_same
  case found =>
    intro k c hc
    by_cases hk : k = key
    · subst hk
      rw [storeGet_put_key_same] at hc
      cases hc
      exact hget
    · rw [storeGet_put_key_other hk] at hc
      exact sramLookup_set_of_hit hj (h.found k c hc)

theorem sram_simulates {limit : Nat} (hlimit : limit ≤ 4096) :
    Simulates first limit (sramAnswers first) (SramMirrors first) where
  done _ _ := rfl
  clear _ _ _ _ := ⟨sramEmpty, .cleared first, fun _ => rfl⟩
  lookup _ _ _ key _ h := by rw [sramAnswers, h.reads key]
  insert _ _ _ _ h habsent hroom := ⟨_, h.insert habsent (Nat.lt_of_lt_of_le hroom hlimit), fun _ => rfl⟩

end Sram

/-- Settles O43: the filled slots hold the map at every operation, and below the capacity every insert finds an empty
slot. -/
theorem hashedSramRefinesMap : Obligations.HashedSramRefinesMap := by
  intro first limit ops hlimit hops
  exact (sram_simulates hlimit).answers_eq (.cleared first) hops

end Sys2Proof.Machine.Organisation
end

section
/-!
PROOF. RESET, and the commands refused before any state is written (spec/41_code_emitter.md R122, R123, R125,
spec/60_exceptions.md R203, R206, R207).
-/

namespace Sys2Proof.Machine

/-- An idle core answers OK without `bpp` and without done (R82). -/
theorem respondOk_of_idle {s : State} (h : s.fsm = .idle) : (respondOk s).response = some 0x00 := by
  have hword : responseWord s none = 0#4 ++ BitVec.ofBool false ++ 0#3 := by
    simp only [responseWord, showsBpp, isDone, statusCode, h]
    rfl
  exact congrArg some hword

/-- Settles O9: RESET is the reset of the core and the response of an idle one. -/
theorem resetReturnsToIdle : Obligations.ResetReturnsToIdle := by
  refine ⟨decodeCw_reset, fun s => ⟨respondOk (resetCore s), rfl, rfl, rfl, ?response, rfl, rfl, rfl, ⟨rfl, rfl, rfl⟩,
    ⟨rfl, rfl, rfl⟩, rfl⟩⟩
  case response => exact respondOk_of_idle rfl

section Refused

variable {s : State}

/-- The three checks of BEGIN have one answer (R123, R207). -/
theorem exec_begin_refused {req : BitVec 4} {quota : BitVec 32}
    (h : (s.fsm ≠ .idle ∧ s.fsm ≠ .flushed) ∨ 8 < req.toNat ∨ quota = 0) :
    exec (.begin req quota) s = .next (raiseError .stateMisuse s) := by
  rw [exec, execBegin]
  split_ifs with hfsm hreq hquota
  · rfl
  · rfl
  · rfl
  · exact absurd h (by simp only [not_or]; exact ⟨hfsm, hreq, hquota⟩)

theorem exec_push_closed {pixel : Byte} (h : s.fsm = .idle ∨ s.fsm = .poisoned) :
    exec (.push pixel) s = .next (raiseError .stateMisuse s) := by
  rw [exec, execPush, if_pos h]

theorem exec_push_flushed {pixel : Byte} (h : s.fsm = .flushed) :
    exec (.push pixel) s = .next (raiseError .dataOverrun s) := by
  rw [exec, execPush, if_neg (by simp [h]), if_pos h]

end Refused

/-- Settles O12: each check raises StateMisuse, which writes nothing but control state and response. -/
theorem beginRefusedOutOfTurn : Obligations.BeginRefusedOutOfTurn :=
  fun _ _ s h => ⟨_, exec_begin_refused h, raiseError_refusedBy (by decide) s⟩

/-- Settles O13: the two checks of PUSH, each with its error. -/
theorem pushRefusedOutOfTurn : Obligations.PushRefusedOutOfTurn :=
  fun _ s => ⟨fun h => ⟨_, exec_push_closed h, raiseError_refusedBy (by decide) s⟩,
    fun h => ⟨_, exec_push_flushed h, raiseError_refusedBy (by decide) s⟩⟩

end Sys2Proof.Machine
end

section
/-!
PROOF. A saturated session at the default parameters (spec/42_width_controller.md R154, R156).
-/

namespace Sys2Proof.Machine

/-- Settles O48: a width that holds the code 4096 is at the ceiling, where WC.GROW does nothing. -/
theorem saturatedWidthIsTwelve : Obligations.SaturatedWidthIsTwelve := by
  intro s hp _ hw hcode
  have hmax := hw.threshold
  have hceiling : s.runningBits.toNat ≤ 12 := by simpa [hp, Config.defaults] using hw.bitsHigh
  have hfits : 2 ^ 12 ≤ 2 ^ s.runningBits.toNat := by
    have hle := hw.codeFits
    rwa [hcode, hmax] at hle
  have hbits : s.runningBits.toNat = 12 :=
    Nat.le_antisymm hceiling ((Nat.pow_le_pow_iff_right (by decide)).mp hfits)
  rw [hbits] at hmax
  refine ⟨hbits, hmax, ?_⟩
  rcases wcGrow_cases s with ⟨_, hbelow, _⟩ | ⟨_, hg⟩
  · rw [hbits, hp] at hbelow
    exact absurd hbelow (Nat.lt_irrefl 12)
  · exact hg

end Sys2Proof.Machine
end

section
/-!
PROOF. BEGIN of a session (spec/41_code_emitter.md R123, R124): the registers it loads, and the clear code in an empty
accumulator and an empty buffer, which writes nothing to the sink.
-/

namespace Sys2Proof.Machine

section Begin

variable {s t : State} {req : BitVec 4} {quota : BitVec 32} {b : Nat} {c : Code}

/-! ### Responses of a session -/

/-- An open session answers OK with its `bpp` and without done (R82). -/
theorem respondOk_of_open (h : s.fsm = .awaitFirst ∨ s.fsm = .matching) :
    (respondOk s).response = some (s.bpp ++ 0#4) := by
  have hdone : isDone s = false := by rcases h with h | h <;> simp [isDone, h]
  have hword : ∀ bpp : BitVec 4, bpp ++ BitVec.ofBool false ++ 0#3 = bpp ++ 0#4 := by decide
  rw [respondOk_response, responseWord, showsBpp_of_open h, hdone]
  exact congrArg some (hword s.bpp)

/-- A completed session answers OK with its `bpp` and with done (R82, R132). -/
theorem respondOk_of_flushed (h : s.fsm = .flushed) : (respondOk s).response = some (s.bpp ++ 0b1000#4) := by
  have hshows : showsBpp s = true := by simp [showsBpp, h]
  have hdone : isDone s = true := by simp [isDone, h]
  have hword : ∀ bpp : BitVec 4, bpp ++ BitVec.ofBool true ++ 0#3 = bpp ++ 0b1000#4 := by decide
  rw [respondOk_response, responseWord, hshows, hdone]
  exact congrArg some (hword s.bpp)

theorem bpp_append_zero (bpp : BitVec 4) : bpp ++ 0#4 = BitVec.ofNat 8 (16 * bpp.toNat) := by
  revert bpp
  decide

/-! ### The clear code -/

/-- Below a full buffer an extraction writes nothing (R160, R181). -/
theorem extractByte_of_room (h : s.sbCount.toNat < 255) :
    extractByte s = .done (shiftOut (putByte (lowByte s) s)) := by
  rcases sbPut_cases (lowByte s) s with ⟨_, hp⟩ | ⟨hfull, _⟩ | ⟨hfull, _⟩
  · rw [extractByte, hp, andThen_done]
  · omega
  · omega

/-- A session of `b` bits before its clear code: accumulator and buffer empty, the width at its start (R123, R151). -/
structure ClearDue (b : Nat) (s : State) : Prop where
  accEmpty : s.shiftValue = 0 ∧ s.shiftBits = 0
  bufferEmpty : s.sbCount = 0
  width : s.runningBits.toNat = b + 1
  bound : b ≤ 8

/-- What the clear code of `b` bits leaves in accumulator and buffer, and that the sink is given nothing (R123). -/
structure ClearPacked (b : Nat) (s t : State) : Prop where
  kept : OutsideKept s t
  sink : sameSink s t
  bits : t.shiftBits.toNat = (b + 1) % 8
  value : t.shiftValue.toNat = 2 ^ b / 2 ^ (8 * ((b + 1) / 8))
  held : heldBytes t = if b = 7 then [0x80] else if b = 8 then [0x00] else []

theorem ClearDue.shiftIn_exact (h : ClearDue b s) (hc : c.toNat = 2 ^ b) :
    (shiftIn c s).shiftBits.toNat = b + 1 ∧ (shiftIn c s).shiftValue.toNat = 2 ^ b := by
  obtain ⟨⟨hvalue, hbits⟩, _, hwidth, hb⟩ := h
  have hp : PackerRegs s := ⟨by simp [hbits], by simp [hbits, hvalue]⟩
  obtain ⟨h1, h2, _⟩ := shiftIn_spec (c := c) hp (by omega)
    (by rw [hc, hwidth]; exact Nat.pow_lt_pow_right (by decide) (Nat.lt_succ_self b))
  exact ⟨by simpa [hbits, hwidth] using h1, by simpa [hbits, hvalue, hc] using h2⟩

/-- The bits that stay in the accumulator once the clear code is packed (R160). -/
theorem ClearDue.pack_bits (h : ClearDue b s) (hc : c.toNat = 2 ^ b) (ht : pack c s = .done t) :
    t.shiftBits.toNat = (b + 1) % 8 ∧ t.shiftValue.toNat = 2 ^ b / 2 ^ (8 * ((b + 1) / 8)) := by
  have hb := h.bound
  obtain ⟨hin, hvalue⟩ := h.shiftIn_exact hc
  obtain ⟨h1, h2, _⟩ := extractWhile_bits (turns := 3) ht (by omega)
  rw [hin] at h1 h2
  rw [hvalue, Nat.shiftRight_eq_div_pow, Nat.mul_comm] at h2
  exact ⟨h1, h2⟩

/-- The clear code is at most one extraction (R160). -/
theorem ClearDue.pack_eq (h : ClearDue b s) (hc : c.toNat = 2 ^ b) :
    pack c s =
      .done (if 7 ≤ b then shiftOut (putByte (lowByte (shiftIn c s)) (shiftIn c s)) else shiftIn c s) := by
  have hb := h.bound
  obtain ⟨hin, _⟩ := h.shiftIn_exact hc
  split_ifs with h7
  · have hroom : (shiftIn c s).sbCount.toNat < 255 := by simp [h.bufferEmpty]
    have hrest : (shiftOut (putByte (lowByte (shiftIn c s)) (shiftIn c s))).shiftBits.toNat < 8 := by
      obtain ⟨_, ⟨_, hkept⟩, _⟩ := putByte_kept (lowByte (shiftIn c s)) (shiftIn c s)
      rw [shiftOut_shiftBits, hkept, hin, BitVec.toNat_ofNat]
      omega
    rw [pack, extractWhile, if_pos (by omega), extractByte_of_room hroom, andThen_done, extractWhile_stop 2 hrest]
  · exact extractWhile_stop 3 (by omega)

/-- The byte the clear code fills, if it fills one, is held and not sent (R160, R181). -/
theorem ClearDue.pack_done (h : ClearDue b s) (hc : c.toNat = 2 ^ b) : ∃ t, pack c s = .done t ∧ ClearPacked b s t := by
  have hb := h.bound
  have hrun := h.pack_eq hc
  obtain ⟨hbits, hvalue⟩ := h.pack_bits hc hrun
  have hkept := (pack_kept c s).1
  rw [hrun] at hkept
  have hnone : heldBytes (shiftIn c s) = [] := List.length_eq_zero_iff.mp (by simp [h.bufferEmpty])
  have hroom : (shiftIn c s).sbCount.toNat < 255 := by simp [h.bufferEmpty]
  refine ⟨_, hrun, hkept, ?sink, hbits, hvalue, ?held⟩
  case sink =>
    split_ifs
    · obtain ⟨ht, hs, ha⟩ := putByte_outside_buffer (lowByte (shiftIn c s)) hroom
      exact ⟨ha, hs, ht⟩
    · exact ⟨rfl, rfl, rfl⟩
  case held =>
    by_cases h7 : 7 ≤ b
    · have hlow : (lowByte (shiftIn c s)).toNat = 2 ^ b % 2 ^ 8 := by rw [lowByte_toNat, (h.shiftIn_exact hc).2]
      rw [if_pos h7]
      show heldBytes (putByte (lowByte (shiftIn c s)) (shiftIn c s)) = _
      rw [putByte_held hroom, hnone, List.nil_append]
      obtain rfl | rfl : b = 7 ∨ b = 8 := by omega
      · rw [BitVec.eq_of_toNat_eq (y := 0x80#8) hlow]
        rfl
      · rw [BitVec.eq_of_toNat_eq (y := 0x00#8) hlow]
        rfl
    · rw [if_neg h7, hnone, if_neg (by omega), if_neg (by omega)]

/-! ### The command -/

/-- A quota register of at least 32 bits holds every `CW.ARG` (R26, R81). -/
theorem loadedQuota_of_wide (h : 32 ≤ s.params.quotaBits) : loadedQuota quota s = quota :=
  if_pos (Nat.lt_of_lt_of_le quota.isLt (Nat.pow_le_pow_right (by decide) h))

/-- The widths of a session just opened (R123, R151). -/
theorem openSession_widths (hreq : req.toNat ≤ 8) (quota : BitVec 32) (s : State) :
    (openSession req quota s).runningCode.toNat = 2 ^ (effectiveBpp req).toNat + 2 ∧
      (openSession req quota s).runningBits.toNat = (effectiveBpp req).toNat + 1 ∧
      (openSession req quota s).maxCode1.toNat = 2 ^ ((effectiveBpp req).toNat + 1) := by
  have hregs := openSession_regs hreq quota s
  obtain ⟨hcode, hbits, hmax⟩ := wcInit_spec (s := bufEmpty (forgetPrefix (loadSession req quota s)))
    (Nat.le_trans hregs.bppHigh (by decide))
  exact ⟨hcode.trans (congrArg (· + 1) hregs.eofIs), hbits, hmax⟩

/-- An accepted BEGIN loads a session, packs its clear code and answers OK, whatever the state held (R123). -/
theorem exec_begin_opens (hf : s.fsm = .idle ∨ s.fsm = .flushed) (hreq : req.toNat ≤ 8) (hquota : quota ≠ 0) :
    ∃ u, exec (.begin req quota) s = .next (respondOk u) ∧
      ClearPacked (effectiveBpp req).toNat (openSession req quota s) u := by
  obtain ⟨_, hbits, _⟩ := openSession_widths hreq quota s
  have hregs := openSession_regs hreq quota s
  have hdue : ClearDue (effectiveBpp req).toNat (openSession req quota s) :=
    ⟨⟨rfl, rfl⟩, rfl, hbits, hregs.bppHigh⟩
  obtain ⟨u, hpack, hu⟩ := hdue.pack_done (c := specialCode (openSession req quota s).clearCode)
    (by rw [specialCode_toNat]; exact hregs.clearIs)
  refine ⟨u, ?_, hu⟩
  rw [exec, execBegin, if_neg (by rcases hf with hf | hf <;> simp [hf]), if_neg (Nat.not_lt.mpr hreq), if_neg hquota,
    beginSession, emitSpecial, hpack, andThen_done, finish_done]

/-- A session just opened answers with the clamped argument (R82, R124). -/
theorem ClearPacked.response {u : State} (hu : ClearPacked b (openSession req quota s) u) :
    u.bpp = effectiveBpp req ∧ (respondOk u).response = some (effectiveBpp req ++ 0#4) := by
  obtain ⟨hbpp, _⟩ := hu.kept.session
  have hbpp' : u.bpp = effectiveBpp req := hbpp
  exact ⟨hbpp', hbpp' ▸ respondOk_of_open (.inl hu.kept.fsm)⟩

/-- BEGIN uses its argument through the clamp alone once it is in range (R124). -/
theorem exec_begin_clamped (hreq : req.toNat ≤ 2) (quota : BitVec 32) (s : State) :
    exec (.begin req quota) s = exec (.begin 2 quota) s := by
  have hclamp : effectiveBpp req = effectiveBpp 2 :=
    BitVec.eq_of_toNat_eq (by rw [effectiveBpp_toNat, effectiveBpp_toNat, Nat.max_eq_right hreq]; rfl)
  have hlow : ¬ Config.bppMax < req.toNat := by simp only [Config.bppMax]; omega
  have hlow' : ¬ Config.bppMax < (2 : BitVec 4).toNat := by decide
  simp only [exec, execBegin, beginSession, openSession, loadSession, hclamp, if_neg hlow, if_neg hlow']

end Begin

/-- Settles O10: the registers loaded, those of WC.INIT, and what the clear code leaves in accumulator and buffer. -/
theorem beginOpensSession : Obligations.BeginOpensSession := by
  intro req quota s hf hreq hquota b hb
  obtain rfl : b = (effectiveBpp req).toNat := hb.trans (effectiveBpp_toNat req).symm
  obtain ⟨u, hexec, hu⟩ := exec_begin_opens hf hreq hquota
  obtain ⟨hcode, hwidth, hmax⟩ := openSession_widths hreq quota s
  obtain ⟨hfsm, hcause⟩ := hu.kept.control
  obtain ⟨kcode, kwidth, kmax⟩ := hu.kept.width
  obtain ⟨hbpp, hresponse⟩ := hu.response
  have hregs := (openSession_regs hreq quota s).of_kept hu.kept
  have hcount := heldBytes_length u
  refine ⟨respondOk u, hexec, hfsm, hcause, congrArg _ hbpp, hbpp ▸ hregs.clearIs, hbpp ▸ hregs.eofIs,
    fun hwide => hu.kept.quota.trans (loadedQuota_of_wide hwide), kcode ▸ hcode, kwidth ▸ hwidth, kmax ▸ hmax,
    fun key => by rw [dictRead, respondOk_dict, hu.kept.dict]; rfl, hu.bits, hu.value, ?count, hu.held,
    hresponse.trans (congrArg some (bpp_append_zero _)), hu.sink, hu.kept.host, hu.kept.replies.2⟩
  case count =>
    have hhigh : (effectiveBpp req).toNat ≤ 8 := (openSession_regs hreq quota s).bppHigh
    rw [hu.held] at hcount
    rw [respondOk_sbCount, ← hcount]
    split_ifs <;> simp only [List.length_singleton, List.length_nil] <;> omega

/-- Settles O11: the argument enters through the clamp, and PUSH masks with the register it was written to. -/
theorem beginClampsSmallPalettes : Obligations.BeginClampsSmallPalettes := by
  refine ⟨fun quota s => ⟨exec_begin_clamped (by decide) quota s, exec_begin_clamped (by decide) quota s⟩, ?_⟩
  intro req quota s hf hreq hquota
  obtain ⟨u, hexec, hu⟩ := exec_begin_opens hf hreq hquota
  obtain ⟨hbpp, hresponse⟩ := hu.response
  refine ⟨respondOk u, hexec, ?_, by rw [hresponse, respondOk_bpp, hbpp], fun pixel => ?_⟩
  · rw [respondOk_bpp, hbpp, effectiveBpp_toNat]
  · obtain ⟨hmask, hpush⟩ := pushMasksPixel pixel (respondOk u)
    refine ⟨hmask.trans ?_, hpush⟩
    rw [respondOk_bpp, hbpp, effectiveBpp_toNat]

end Sys2Proof.Machine
end

section
/-!
PROOF. Commands that write nothing to the sink: RESET and BEGIN in every state, every command in POISONED
(spec/41_code_emitter.md R134, spec/60_exceptions.md R208, R210).
-/

namespace Sys2Proof.Machine

section Silent

variable {s t : State}

theorem raiseError_sameSink (k : ErrorKind) (s : State) : sameSink s (raiseError k s) := by
  obtain ⟨htrace, hstream, hscript, _⟩ := raiseError_outside k s
  exact ⟨hscript, hstream, htrace⟩

theorem legalBegin_iff (req : BitVec 4) (quota : BitVec 32) :
    legalBegin req quota = true ↔ req.toNat ≤ 8 ∧ quota ≠ 0 := by
  simp [legalBegin]

/-- Everything BEGIN can do: open a session and emit its clear code, or raise StateMisuse (R123). -/
theorem exec_begin_cases (req : BitVec 4) (quota : BitVec 32) (s : State) :
    ((legalBegin req quota = true ∧ (s.fsm = .idle ∨ s.fsm = .flushed)) ∧
        ∃ u, exec (.begin req quota) s = .next (respondOk u) ∧
          ClearPacked (effectiveBpp req).toNat (openSession req quota s) u) ∨
      (¬ (legalBegin req quota = true ∧ (s.fsm = .idle ∨ s.fsm = .flushed)) ∧
        exec (.begin req quota) s = .next (raiseError .stateMisuse s)) := by
  by_cases h : legalBegin req quota = true ∧ (s.fsm = .idle ∨ s.fsm = .flushed)
  · obtain ⟨hlegal, hf⟩ := h
    obtain ⟨hreq, hquota⟩ := (legalBegin_iff req quota).mp hlegal
    exact .inl ⟨⟨hlegal, hf⟩, exec_begin_opens hf hreq hquota⟩
  · refine .inr ⟨h, exec_begin_refused ?_⟩
    rw [legalBegin_iff] at h
    by_cases hquota : quota = 0
    · exact .inr (.inr hquota)
    · by_cases hreq : req.toNat ≤ 8
      · exact .inl (not_or.mp fun hf => h ⟨⟨hreq, hquota⟩, hf⟩)
      · exact .inr (.inl (Nat.lt_of_not_le hreq))

theorem exec_begin_sameSink {req : BitVec 4} {quota : BitVec 32} (h : exec (.begin req quota) s = .next t) :
    sameSink s t := by
  rcases exec_begin_cases req quota s with ⟨_, u, hexec, hu⟩ | ⟨_, hexec⟩ <;> rw [hexec] at h <;> cases h
  · exact hu.sink
  · exact raiseError_sameSink .stateMisuse s

/-- A command of a poisoned core is an error that writes nothing, but for RESET (R208 to R210). -/
theorem exec_poisoned {i : Instr} (hi : isCommand i = true) (hp : s.fsm = .poisoned) :
    exec i s = .next (raiseError .stateMisuse s) ∨ exec i s = .next (respondOk (resetCore s)) := by
  cases i with
  | begin req quota => exact .inl (exec_begin_refused (.inl (by simp [hp])))
  | push pixel => exact .inl (exec_push_closed (.inr hp))
  | reset => exact .inr rfl
  | _ => cases hi

/-- Everything a step of a poisoned core can be, without a port request (R208, R210, R216). -/
theorem step_poisoned (hr : s.request = none) (hp : s.fsm = .poisoned) (h : step s = .next t) :
    sameSink s t ∧ (t.fsm = .poisoned ∨ t.fsm = .idle) := by
  match hi : s.hostInput with
  | [] =>
    rw [step_of_fetch_nothing (fetch_of_idle hr hi)] at h
    cases h
    exact ⟨⟨rfl, rfl, rfl⟩, .inl hp⟩
  | .hardReset :: rest =>
    rw [step_of_hardReset hr hi] at h
    cases h
    exact ⟨⟨rfl, rfl, rfl⟩, .inr rfl⟩
  | .command w :: rest =>
    have hraised := raiseError_sameSink .stateMisuse { s with hostInput := rest }
    rcases readCommand_cases w with ⟨i, hw, hc⟩ | hw
    · rw [step_of_run hr hi hw] at h
      rcases exec_poisoned (s := { s with hostInput := rest }) hc hp with hexec | hexec <;> rw [hexec] at h <;> cases h
      · exact ⟨hraised, .inl rfl⟩
      · exact ⟨⟨rfl, rfl, rfl⟩, .inr rfl⟩
    · rw [step_of_illegal hr hi hw] at h
      cases h
      exact ⟨hraised, .inl rfl⟩

end Silent

/-- Settles O25: RESET leaves the sink alone, BEGIN writes nothing whether accepted or not, and in POISONED every
command but RESET is an error. -/
theorem noWriteWithoutPush : Obligations.NoWriteWithoutPush := by
  refine ⟨fun i s t hi hpush h => ?_, fun s t hr hp h => step_poisoned hr hp h⟩
  cases i with
  | begin req quota => exact exec_begin_sameSink h
  | push pixel => exact absurd rfl (hpush pixel)
  | reset =>
    cases h
    exact ⟨rfl, rfl, rfl⟩
  | _ => cases hi

end Sys2Proof.Machine
end

section
/-!
PROOF. A PUSH that emits no code (spec/41_code_emitter.md R126, R127): the first pixel, and a hit, with pixels still to
come.
-/

namespace Sys2Proof.Machine

section Push

variable {s t : State} {pixel : Byte}

/-- With more than one pixel to come counting one leaves some (R26). -/
theorem countPixel_quota_left (hq : 1 < s.quota.toNat) :
    (countPixel s).quota.toNat + 1 = s.quota.toNat ∧ (countPixel s).quota ≠ 0 := by
  obtain ⟨k, hk⟩ := Nat.exists_eq_add_of_le' (Nat.le_of_lt hq)
  have hcount := countPixel_quota_toNat hk
  refine ⟨by omega, fun h0 => ?_⟩
  rw [h0] at hcount
  have hzero : k = 0 := hcount.symm
  omega

/-- A PUSH whose pixel completes with pixels still to come ends with the response (R125). -/
theorem exec_push_goes_on (ho : s.fsm = .awaitFirst ∨ s.fsm = .matching)
    (h : pushPixel (maskPixel s.bpp pixel) (countPixel s) = .ok (.done t)) (hq : t.quota ≠ 0) :
    exec (.push pixel) s = .next (respondOk t) := by
  rw [exec_push_of_pixel ho h, pushEnd_of_quota hq]

end Push

/-- Settles O15: the pixel is counted and masked, and its code is the match. -/
theorem pushFirstPixelBecomesPrefix : Obligations.PushFirstPixelBecomesPrefix := by
  intro pixel s hf hq
  obtain ⟨hcount, hleft⟩ := countPixel_quota_left hq
  have hpixel : pushPixel (maskPixel s.bpp pixel) (countPixel s) =
      .ok (.done (pushFirst (maskPixel s.bpp pixel) (countPixel s))) := by
    rw [pushPixel, if_pos (show (countPixel s).fsm = .awaitFirst from hf)]
  refine ⟨_, exec_push_goes_on (.inl hf) hpixel hleft, rfl, rfl, ?_, hcount, rfl, rfl, rfl, ⟨rfl, rfl, rfl⟩, ⟨rfl, rfl⟩,
    fun _ => rfl, fun _ => rfl, ⟨rfl, rfl, rfl⟩, ⟨rfl, rfl, rfl⟩, rfl, respondOk_of_open (.inr rfl)⟩
  rw [respondOk_pendingPrefix, pushFirst_pendingPrefix, pixelCode_toNat, maskPixel_toNat]

/-- Settles O16: the pixel is counted, and the code found is the match. -/
theorem pushHitExtendsMatch : Obligations.PushHitExtendsMatch := by
  intro pixel s c hf hq hhit
  obtain ⟨hcount, hleft⟩ := countPixel_quota_left hq
  have hread : dictRead (countPixel s) (keyOf (countPixel s).pendingPrefix (maskPixel s.bpp pixel)) = some c := hhit
  have hpixel : pushPixel (maskPixel s.bpp pixel) (countPixel s) = .ok (.done (setPrefix c (countPixel s))) := by
    rw [pushPixel, if_neg (by simp [hf]), pushMatching, hread]
  exact ⟨_, exec_push_goes_on (.inr hf) hpixel hleft, rfl, hcount, ⟨rfl, rfl⟩, rfl, rfl, rfl, ⟨rfl, rfl, rfl⟩,
    ⟨rfl, rfl⟩, fun _ => rfl, fun _ => rfl, ⟨rfl, rfl, rfl⟩, ⟨rfl, rfl, rfl⟩, rfl, respondOk_of_open (.inr hf)⟩

end Sys2Proof.Machine
end

section
/-!
PROOF. What the framer and the packer write whatever the sink answers (spec/41_code_emitter.md R134,
spec/44_subblock_framer.md R181, R182, R188): the transactions of an operation by the bits it has taken, all of them
acknowledged, or the last of them failed.
-/

namespace Sys2Proof.Machine

/-- Where the operation completes, its state meets `P`; where it raises, the error is SinkWriteFailure and the state it
raised in meets `E`. -/
def Run.Writes (P E : State → Prop) : Run → Prop
  | .done s => P s
  | .raised k s => k = .sinkWriteFailure ∧ E s

/-- Since `base` at most `m` transactions have been made, at least `n` of them acknowledged, and the last one failed. -/
def WriteFailed (base : State) (n m : Nat) (s : State) : Prop :=
  ∃ (w : List (List Byte)) (failed : List Byte),
    s.trace = base.trace ++ w.map (fun b => (b, .ok)) ++ [(failed, .fail)] ∧ n ≤ w.length ∧ w.length + 1 ≤ m

/-- Since `base` the framer and the accumulator have taken `low` to `high` bits, those held at `base` among them (R33,
R185). -/
def Taken (base : State) (n low high : Nat) (s : State) : Prop :=
  ∃ payload, Framed base n payload s ∧ low ≤ 8 * payload.length + s.shiftBits.toNat ∧
    8 * payload.length + s.shiftBits.toNat ≤ high

/-- Since `base` the end of a session's image data has been written and acknowledged: at most one full SUBBLOCK, the
last SUBBLOCK and the TERMINATOR (R77, R188). -/
def ImageSent (base : State) (n : Nat) (s : State) : Prop :=
  ∃ w, Acknowledged base n w s ∧ Wire.isImageData w = true ∧ w.length ≤ 3

section Writes

variable {P Q E F : State → Prop} {r : Run} {base s t : State} {n m low high : Nat}

theorem Run.Writes.mono (h : r.Writes P E) (hP : ∀ t, r = .done t → P t → Q t) (hE : ∀ t, E t → F t) :
    r.Writes Q F := by
  cases r with
  | done t => exact hP t rfl h
  | raised k t => exact ⟨h.1, hE t h.2⟩

theorem Run.Writes.imp (h : r.Writes P E) (hP : ∀ t, P t → Q t) : r.Writes Q E :=
  h.mono (fun t _ ht => hP t ht) fun _ ht => ht

theorem Run.Writes.andThen {f : State → Run} (h : r.Writes P E) (hf : ∀ t, P t → (f t).Writes Q E) :
    (r.andThen f).Writes Q E := by
  cases r with
  | done t => exact hf t h
  | raised k t => exact h

theorem Run.Writes.and_ends (h : r.Writes P E) (g : r.Ends Q F) : r.Writes (fun t => P t ∧ Q t) E := by
  cases r with
  | done t => exact ⟨h, g⟩
  | raised k t => exact h

theorem WriteFailed.mono {m' : Nat} (h : WriteFailed base n m s) (hm : m ≤ m') : WriteFailed base n m' s := by
  obtain ⟨w, failed, htrace, hn, hw⟩ := h
  exact ⟨w, failed, htrace, hn, hw.trans hm⟩

theorem Run.Writes.weaken {m' : Nat} (h : r.Writes P (WriteFailed base n m)) (hm : m ≤ m') :
    r.Writes P (WriteFailed base n m') :=
  h.mono (fun _ _ ht => ht) fun _ ht => ht.mono hm

/-- With an answer `ok` for every transaction it could make the operation completes (R62). -/
theorem Run.Writes.completes (h : r.Writes P (WriteFailed base n m)) (hm : m ≤ n) : ∃ t, r = .done t ∧ P t := by
  cases r with
  | done t => exact ⟨t, rfl, h⟩
  | raised k t =>
    obtain ⟨_, w, _, _, hn, hw⟩ := h
    omega

/-! ### The framer -/

/-- One more transaction since `base`, acknowledged or failed (R55, R183). -/
theorem Acknowledged.sinkWrite_writes {w : List (List Byte)} (h : Acknowledged base n w s) (bytes : List Byte) :
    (sinkWrite bytes s).Writes (Acknowledged base n (w ++ [bytes])) (WriteFailed base n (w.length + 1)) := by
  by_cases hw : w.length < n
  · obtain ⟨hrun, hsent⟩ := h.sinkWrite_done hw bytes
    rw [hrun]
    exact hsent
  · rcases sinkWrite_cases bytes s with ⟨ha, hrun⟩ | ⟨ha, hrun⟩ <;> rw [hrun]
    · have hnone : n - (w ++ [bytes]).length = 0 := by
        rw [List.length_append]
        omega
      refine ⟨?_, ?_, by rw [hnone]; rfl⟩
      · rw [sinkAnswered_trace, h.trace, ha, List.map_append, List.append_assoc, List.map_singleton]
      · rw [sinkAnswered_stream, streamGain_ok ha, h.stream, List.flatten_append, List.append_assoc,
          List.flatten_singleton]
    · exact ⟨rfl, w, bytes, by rw [sinkAnswered_trace, h.trace, ha], Nat.le_of_not_lt hw, Nat.le_refl _⟩

/-- A byte taken by a framer that has not yet taken two blocks is at most one transaction (R181). -/
theorem Framed.sbPut_writes {payload : List Byte} (h : Framed base n payload s) (hroom : payload.length < 510)
    (b : Byte) : (sbPut b s).Writes (Framed base n (payload ++ [b])) (WriteFailed base n 1) := by
  obtain ⟨full, hfull, hsent, rfl⟩ := h
  rw [List.length_append, flatten_length_of_full hfull, heldBytes_length] at hroom
  have hwrite := hsent.sinkWrite_writes (heldBlock s)
  rcases sbPut_cases b s with ⟨hc, hp⟩ | ⟨hc, ha, hp⟩ | ⟨hc, ha, hp⟩ <;> rw [hp]
  · obtain ⟨ht, hs, ha⟩ := putByte_outside_buffer b hc
    exact ⟨full, hfull, hsent.congr ht hs ha, by rw [putByte_held hc, List.append_assoc]⟩
  · rw [sinkWrite_ok ha] at hwrite
    have hempty : (bufEmpty (sinkAnswered (heldBlock s) s)).sbCount.toNat < 255 := by simp
    obtain ⟨ht, hs, ha⟩ := putByte_outside_buffer b hempty
    refine ⟨full ++ [heldBytes s], ?_, ?_, ?_⟩
    · exact List.forall_mem_append.mpr ⟨hfull, by simp [hc]⟩
    · rw [List.map_append, List.map_singleton, ← heldBlock_frame]
      exact Acknowledged.congr hwrite ht hs ha
    · rw [putByte_held hempty, heldBytes_bufEmpty, List.flatten_append, List.flatten_singleton, List.nil_append]
  · rw [sinkWrite_fail ha] at hwrite
    obtain ⟨_, hfailed⟩ := hwrite
    exact ⟨rfl, hfailed.mono (by rw [List.length_map]; omega)⟩

theorem blocks_flatten {full : List (List Byte)} {last : List Byte} (hfull : ∀ b ∈ full, b.length = 255)
    (hlast : last.length ≤ 255) :
    Wire.blocks (full.flatten ++ last) =
      (full.map frame ++ if last = [] then [] else [frame last]) ++ [[0x00]] := by
  rw [Wire.blocks, Wire.subblocks_flatten hfull hlast (Nat.le_refl _)]

/-- SB.TERMINATE makes at most two transactions after the full SUBBLOCKs (R182). -/
theorem Framed.sbTerminate_writes {payload : List Byte} (h : Framed base n payload s) (hroom : payload.length < 510) :
    (sbTerminate s).Writes (Acknowledged base n (Wire.blocks payload)) (WriteFailed base n 3) := by
  obtain ⟨full, hfull, hsent, rfl⟩ := h
  have hlen := heldBytes_length s
  rw [List.length_append, flatten_length_of_full hfull] at hroom
  have hpartial : (flushPartial s).Writes
      (Acknowledged base n (full.map frame ++ if heldBytes s = [] then [] else [frame (heldBytes s)]))
      (WriteFailed base n 3) := by
    by_cases h0 : s.sbCount = 0
    · have hnil : heldBytes s = [] := List.length_eq_zero_iff.mp (by simp [h0])
      rw [flushPartial, if_pos h0, if_pos hnil, List.append_nil]
      exact hsent
    · have hne : heldBytes s ≠ [] := fun hnil => by
        rw [hnil] at hlen
        exact h0 (BitVec.eq_of_toNat_eq hlen.symm)
      rw [flushPartial, if_neg h0, if_neg hne, ← heldBlock_frame]
      refine ((hsent.sinkWrite_writes (heldBlock s)).weaken ?_).andThen fun t ht =>
        ht.congr (t := bufEmpty t) rfl rfl rfl
      rw [List.length_map]
      omega
  rw [blocks_flatten hfull (heldBytes_length_le s)]
  refine hpartial.andThen fun t ht => (ht.sinkWrite_writes [0x00]).weaken ?_
  rw [List.length_append, List.length_map]
  split_ifs <;> simp only [List.length_nil, List.length_singleton] <;> omega

theorem frame_isSubblock {payload : List Byte} (hne : payload ≠ []) (h : payload.length ≤ 255) :
    Wire.isSubblock (frame payload) = true := by
  have hshape := frame_isTransaction h
  obtain ⟨x, xs, rfl⟩ := List.exists_cons_of_ne_nil hne
  rcases Bool.or_eq_true _ _ ▸ hshape with hsub | hterm
  · exact hsub
  · simp [Wire.isTerminator, frame] at hterm

/-- The blocks of fewer than two full payloads are image data of at most three transactions (R77). -/
theorem blocks_isImageData {payload : List Byte} (hne : payload ≠ []) (h : payload.length < 510) :
    Wire.isImageData (Wire.blocks payload) = true ∧ (Wire.blocks payload).length ≤ 3 := by
  by_cases hone : payload.length ≤ 255
  · have hblocks : Wire.blocks payload = [frame payload, [0x00]] := by
      simpa [hne] using blocks_flatten (full := []) (by simp) hone
    rw [hblocks, Wire.isImageData, frame_isSubblock hne hone]
    exact ⟨rfl, Nat.le_of_succ_le (Nat.le_refl 3)⟩
  · have hfull : (payload.take 255).length = 255 := by
      rw [List.length_take]
      omega
    have hlast : (payload.drop 255).length ≤ 255 := by
      rw [List.length_drop]
      omega
    have hnel : payload.drop 255 ≠ [] := fun hnil => hone (List.drop_eq_nil_iff.mp hnil)
    have hblocks : Wire.blocks payload = [frame (payload.take 255), frame (payload.drop 255), [0x00]] := by
      have hcut := blocks_flatten (full := [payload.take 255]) (by simpa using hfull) hlast
      rw [List.flatten_singleton, List.take_append_drop, if_neg hnel] at hcut
      exact hcut
    have hsub : Wire.isSubblock (frame (payload.take 255)) = true :=
      frame_isSubblock (fun hnil => by simp [hnil] at hfull) hfull.le
    have hlen : (frame (payload.take 255)).length = 256 := by rw [frame, List.length_cons, hfull]
    rw [hblocks, Wire.isImageData, Wire.isFullBlock, hsub, hlen, Wire.isImageData, frame_isSubblock hnel hlast]
    · exact ⟨rfl, Nat.le_refl 3⟩
    · simp

/-! ### The packer -/

theorem Taken.refl (h : answersOk n s) : Taken s n 0 (2040 + s.shiftBits.toNat) s := by
  have hcount := s.sbCount.isLt
  exact ⟨heldBytes s, .refl h, Nat.zero_le _, by rw [heldBytes_length]; omega⟩

theorem Taken.congr (h : Taken base n low high s) (hsink : sameSink s t) (hb : t.shiftBits = s.shiftBits)
    (hheld : heldBytes t = heldBytes s) : Taken base n low high t := by
  obtain ⟨ha, hs, ht⟩ := hsink
  obtain ⟨payload, hframed, hbits⟩ := h
  exact ⟨payload, hframed.congr ht hs ha hheld, by rwa [hb]⟩

theorem Taken.mono {low' high' : Nat} (h : Taken base n low high s) (hlow : low' ≤ low) (hhigh : high ≤ high') :
    Taken base n low' high' s := by
  obtain ⟨payload, hframed, hmin, hmax⟩ := h
  exact ⟨payload, hframed, hlow.trans hmin, hmax.trans hhigh⟩

theorem Framed.extractByte_writes {payload : List Byte} (h : Framed base n payload s) (hroom : payload.length < 510) :
    (extractByte s).Writes (Framed base n (payload ++ [lowByte s])) (WriteFailed base n 1) :=
  (h.sbPut_writes hroom (lowByte s)).andThen fun t ht => ht.congr (t := shiftOut t) rfl rfl rfl rfl

/-- An extraction moves eight bits and takes none (R160). -/
theorem Taken.extractByte_writes (h : Taken base n low high s) (h8 : 8 ≤ s.shiftBits.toNat) (hroom : high < 4080) :
    (extractByte s).Writes (Taken base n low high) (WriteFailed base n 1) := by
  obtain ⟨payload, hframed, hmin, hmax⟩ := h
  refine (hframed.extractByte_writes (by omega)).mono (fun t hrun ht => ⟨_, ht, ?_⟩) fun _ ht => ht
  obtain ⟨hbits, _⟩ := extractByte_spec hrun h8
  rw [List.length_append, List.length_singleton, hbits]
  omega

theorem Taken.extractWhile_writes (h : Taken base n low high s) (hroom : high < 4080) (turns : Nat) :
    (extractWhile 8 turns s).Writes (Taken base n low high) (WriteFailed base n 1) := by
  induction turns generalizing s with
  | zero => exact h
  | succ k ih =>
    rw [extractWhile]
    split_ifs with h8
    · exact (h.extractByte_writes h8 hroom).andThen fun t ht => ih ht
    · exact h

/-- A code of the current width is that many bits more, and at most one transaction (R160, R188). -/
theorem Taken.pack_writes (h : Taken base n low high s) (hp : PackerRegs s) (hr : s.runningBits.toNat ≤ 12)
    (hroom : high + 12 < 4080) (c : Code) :
    (pack c s).Writes (Taken base n (low + s.runningBits.toNat) (high + 12)) (WriteFailed base n 1) := by
  have h7 := hp.bitsHigh
  obtain ⟨payload, hframed, hmin, hmax⟩ := h
  have hbits : (shiftIn c s).shiftBits.toNat = s.shiftBits.toNat + s.runningBits.toNat := by
    rw [shiftIn_shiftBits, fit_toNat _ (by omega)]
  have hin : Taken base n (low + s.runningBits.toNat) (high + 12) (shiftIn c s) :=
    ⟨payload, hframed.congr rfl rfl rfl rfl, by omega, by omega⟩
  exact hin.extractWhile_writes hroom 3

/-- PK.FLUSH's loop completes the last byte (R163). -/
theorem Taken.drain_writes (h : Taken base n low high s) (hp : PackerRegs s) (hroom : high < 4072) :
    (extractWhile 1 4 s).Writes
      (fun t => ∃ payload, Framed base n payload t ∧ low ≤ 8 * payload.length ∧ payload.length < 510)
      (WriteFailed base n 1) := by
  have h7 := hp.bitsHigh
  obtain ⟨payload, hframed, hmin, hmax⟩ := h
  rw [extractWhile]
  split_ifs with h1
  · refine ((hframed.extractByte_writes (by omega)).and_ends (extractByte_drains hp)).andThen fun t ⟨ht, hzero, _⟩ => ?_
    rw [extractWhile_stop 3 (by simp [hzero])]
    refine ⟨_, ht, ?_⟩
    rw [List.length_append, List.length_singleton]
    omega
  · exact ⟨payload, hframed, by omega, by omega⟩

/-- PK.FLUSH sends what has been taken as image data of at most three transactions (R77, R163, R188). -/
theorem Taken.flush_writes (h : Taken base n low high s) (hp : PackerRegs s) (hlow : 0 < low) (hroom : high < 4072) :
    (flush s).Writes (ImageSent base n) (WriteFailed base n 3) := by
  refine ((h.drain_writes hp hroom).weaken (by decide)).andThen fun t ⟨payload, hframed, hmin, hmax⟩ => ?_
  have hne : payload ≠ [] := fun hnil => by simp [hnil] at hmin; omega
  exact (hframed.sbTerminate_writes hmax).imp fun u hu => ⟨_, hu, blocks_isImageData hne hmax⟩

end Writes

end Sys2Proof.Machine
end

section
/-!
PROOF. What one PUSH of a legal open session writes (spec/41_code_emitter.md R125 to R131, R134): its codes are few
enough bits for one full SUBBLOCK before the end, and at the end for three transactions.
-/

namespace Sys2Proof.Machine

/-- The registers a session keeps from its first pixel to its last, and the host's side (R21, R123). -/
structure SessionKept (s t : State) : Prop where
  regs : t.bpp = s.bpp ∧ t.clearCode = s.clearCode ∧ t.eofCode = s.eofCode ∧ t.quota = s.quota
  host : sameHost s t
  reply : t.dictReply = s.dictReply

/-- What a pixel's own processing leaves of a session, by the state `s` before the PUSH (R125 to R130). -/
structure PixelDone (n : Nat) (s t : State) : Prop where
  matching : Matching t
  kept : SessionKept (countPixel s) t
  taken : Taken s n 0 2071 t

/-- What a PUSH leaves of a session that goes on (R126 to R130). -/
structure PushedOn (n : Nat) (s t : State) : Prop where
  fsm : t.fsm = .matching
  response : t.response = some (s.bpp ++ 0#4)
  sent : ∃ w, Acknowledged s n w t ∧ w.length ≤ 1

/-- What the PUSH of the last pixel leaves (R131). -/
structure PushedLast (n : Nat) (s t : State) : Prop where
  fsm : t.fsm = .flushed
  legal : Inv t
  kept : SessionKept (countPixel s) t
  response : t.response = some (s.bpp ++ 0b1000#4)
  sent : ImageSent s n t

section Push

variable {base s t u : State} {n low high : Nat} {p : Byte} {c : Code}

theorem SessionKept.trans (h : SessionKept s t) (g : SessionKept t u) : SessionKept s u := by
  obtain ⟨⟨hb, hc, he, hq⟩, ⟨hi, hr, hp⟩, hd⟩ := h
  obtain ⟨⟨hb', hc', he', hq'⟩, ⟨hi', hr', hp'⟩, hd'⟩ := g
  exact ⟨⟨hb'.trans hb, hc'.trans hc, he'.trans he, hq'.trans hq⟩, ⟨hi'.trans hi, hr'.trans hr, hp'.trans hp⟩,
    hd'.trans hd⟩

/-- Operations on the match, width, dictionary or control state leave these items as they are. -/
theorem SessionKept.of_silent (hb : t.bpp = s.bpp) (hc : t.clearCode = s.clearCode) (he : t.eofCode = s.eofCode)
    (hq : t.quota = s.quota) (hh : sameHost s t) (hd : t.dictReply = s.dictReply) : SessionKept s t :=
  ⟨⟨hb, hc, he, hq⟩, hh, hd⟩

theorem OutsideKept.sessionKept (h : OutsideKept s t) : SessionKept s t := by
  obtain ⟨hb, hc, he, hq, _⟩ := h.session
  exact ⟨⟨hb, hc, he, hq⟩, h.host, h.replies.2⟩

/-! ### The codes -/

/-- A data code of an open session is at least one bit and at most twelve (R128, R161). -/
theorem Taken.emitData_writes (h : Taken base n low high s) (hs : Session s) (hw : WidthRegs s)
    (hc : c.toNat < s.runningCode.toNat) (hroom : high + 12 < 4080) :
    (emitData c s).Writes (fun t => DataEmitted s t ∧ SessionKept s t ∧ Taken base n (low + 1) (high + 12) t)
      (WriteFailed base n 1) := by
  have hbits := hw.bits_le hs.grounded.params
  have hlow := hw.bitsLow
  have hpack := (h.pack_writes hs.packer hbits hroom c).and_ends (pack_outside c s)
  have hemit : (emitData c s).Writes (fun t => SessionKept s t ∧ Taken base n (low + 1) (high + 12) t)
      (WriteFailed base n 1) := by
    refine hpack.andThen fun u ⟨hu, hk⟩ => ⟨hk.sessionKept.trans ?_, ?_⟩
    · rcases wcGrow_cases u with ⟨_, _, hg⟩ | ⟨_, hg⟩ <;> rw [hg] <;>
        exact .of_silent rfl rfl rfl rfl ⟨rfl, rfl, rfl⟩ rfl
    · obtain ⟨hsink, ⟨_, hshift⟩, hheld⟩ := wcGrow_output u
      exact (hu.congr hsink hshift hheld).mono (by omega) (Nat.le_refl _)
  exact (hemit.and_ends (emitData_session hs hw hc)).imp fun t ht => ⟨ht.2, ht.1⟩

/-- A special code of an open session is at most twelve bits (R129, R131). -/
theorem Taken.emitSpecial_writes (h : Taken base n low high s) (hs : Session s) (hr : s.runningBits.toNat ≤ 12)
    (hc : c.toNat < 2 ^ s.runningBits.toNat) (hroom : high + 12 < 4080) :
    (emitSpecial c s).Writes (fun t => Taken base n low (high + 12) t ∧ Session t ∧ OutsideKept s t)
      (WriteFailed base n 1) :=
  ((h.pack_writes hs.packer hr hroom c).imp fun _ ht => ht.mono (Nat.le_add_right _ _) (Nat.le_refl _)).and_ends
    (pack_session hs hr hc)

/-! ### One pixel -/

/-- A clear code after a data code, and the restart behind it (R129). -/
theorem Taken.pushSaturated_writes (h : Taken base n low high s) (hs : Session s) (hr : s.runningBits.toNat ≤ 12)
    (hc : (specialCode s.clearCode).toNat < 2 ^ s.runningBits.toNat) (hroom : high + 12 < 4080) :
    (pushSaturated s).Writes (fun t => SessionKept s t ∧ Taken base n low (high + 12) t) (WriteFailed base n 1) :=
  (h.emitSpecial_writes hs hr hc hroom).andThen fun _ ⟨hu, _, hk⟩ =>
    ⟨hk.sessionKept.trans (.of_silent rfl rfl rfl rfl ⟨rfl, rfl, rfl⟩ rfl), hu.congr ⟨rfl, rfl, rfl⟩ rfl rfl⟩

/-- A miss is at most two codes (R128 to R130). -/
theorem Taken.pushMiss_writes {r : Run} (h : Taken base n low high s) (hm : Matching s)
    (hmiss : dictRead s (keyOf s.pendingPrefix p) = none) (hroom : high + 24 < 4080) (hr : pushMiss p s = .ok r) :
    r.Writes (fun t => SessionKept s t ∧ Taken base n low (high + 24) t) (WriteFailed base n 1) := by
  have hdata := h.emitData_writes hm.session hm.width hm.held.assigned (by omega)
  cases hrun : emitData s.pendingPrefix s with
  | raised k t =>
    rw [hrun] at hdata
    rw [pushMiss_of_raised hrun] at hr
    cases hr
    exact hdata
  | done t =>
    rw [hrun] at hdata
    obtain ⟨ht, hkept, htaken⟩ : DataEmitted s t ∧ SessionKept s t ∧ Taken base n (low + 1) (high + 12) t := hdata
    have hset : SessionKept s (setPrefix (pixelCode p) t) :=
      hkept.trans (.of_silent rfl rfl rfl rfl ⟨rfl, rfl, rfl⟩ rfl)
    have hsent : Taken base n low (high + 12) (setPrefix (pixelCode p) t) :=
      (htaken.congr (t := setPrefix (pixelCode p) t) ⟨rfl, rfl, rfl⟩ rfl rfl).mono (Nat.le_succ _) (Nat.le_refl _)
    rw [pushMiss_of_done hrun] at hr
    split_ifs at hr with hsat
    · cases hr
      exact (hsent.pushSaturated_writes (setPrefix_session _ ht.session) ht.bits
        (ht.special_fits hm.session.regs hm.width).1 (by omega)).imp fun _ hu => ⟨hset.trans hu.1, hu.2⟩
    · obtain ⟨habsent, hspace⟩ := ht.insert_room (pixelCode p) hm.width hm.entries hmiss
      rw [pushInsert_ok habsent hspace] at hr
      cases hr
      exact ⟨hset.trans (.of_silent rfl rfl rfl rfl ⟨rfl, rfl, rfl⟩ rfl),
        (hsent.congr (t := inserted (keyOf s.pendingPrefix p) (setPrefix (pixelCode p) t)) ⟨rfl, rfl, rfl⟩ rfl
          rfl).mono (Nat.le_refl _) (Nat.add_le_add_left (by decide) high)⟩

theorem Taken.pushPixel_writes {r : Run} (h : Taken base n low high s) (hm : s.fsm ≠ .awaitFirst → Matching s)
    (hroom : high + 24 < 4080) (hr : pushPixel p s = .ok r) :
    r.Writes (fun t => SessionKept s t ∧ Taken base n low (high + 24) t) (WriteFailed base n 1) := by
  have hsilent : ∀ t, sameSink s t → t.shiftBits = s.shiftBits → heldBytes t = heldBytes s →
      Taken base n low (high + 24) t := fun t hsink hb hheld =>
    (h.congr hsink hb hheld).mono (Nat.le_refl _) (Nat.le_add_right _ _)
  rw [pushPixel] at hr
  split_ifs at hr with hfirst
  · cases hr
    exact ⟨.of_silent rfl rfl rfl rfl ⟨rfl, rfl, rfl⟩ rfl, hsilent _ ⟨rfl, rfl, rfl⟩ rfl rfl⟩
  · rw [pushMatching] at hr
    cases hread : dictRead s (keyOf s.pendingPrefix p) with
    | some c =>
      rw [hread] at hr
      cases hr
      exact ⟨.of_silent rfl rfl rfl rfl ⟨rfl, rfl, rfl⟩ rfl, hsilent _ ⟨rfl, rfl, rfl⟩ rfl rfl⟩
    | none =>
      rw [hread] at hr
      exact h.pushMiss_writes (hm hfirst) hread hroom hr

/-! ### The end of a session -/

/-- With the quota spent the last two codes and the flush are three transactions at most (R131, R188). -/
theorem Taken.terminate_writes (h : Taken base n low high s) (hm : Matching s) (hq : s.quota = 0)
    (hroom : high + 24 < 4072) :
    (terminate s).Writes (fun t => t.fsm = .flushed ∧ SessionKept s t ∧ ImageSent base n t) (WriteFailed base n 3) := by
  have hdata := (h.emitData_writes hm.session hm.width hm.held.assigned (by omega)).weaken (m' := 3) (by decide)
  rw [terminate, if_pos hq]
  refine hdata.andThen fun t ⟨ht, hkept, htaken⟩ => ?_
  have hfit := (ht.special_fits hm.session.regs hm.width).2
  have hend := (htaken.emitSpecial_writes ht.session ht.bits hfit (by omega)).weaken (m' := 3) (by decide)
  refine hend.andThen fun u ⟨hu, hsession, hk⟩ => ?_
  have hflush : (flush u).Writes (fun v => OutsideKept u v ∧ ImageSent base n v) (WriteFailed base n 3) :=
    (hu.flush_writes hsession.packer (Nat.succ_pos _) (by omega)).mono
      (fun v hrun hv => ⟨(flush_leaves hsession.packer hrun).1, hv⟩) fun _ hv => hv
  refine hflush.andThen fun v ⟨hk', w, hsent, hshape⟩ => ⟨rfl, ?_, w, hsent.congr rfl rfl rfl, hshape⟩
  exact (hkept.trans (hk.sessionKept.trans hk'.sessionKept)).trans (.of_silent rfl rfl rfl rfl ⟨rfl, rfl, rfl⟩ rfl)

/-! ### The command -/

/-- With its pixel counted a legal open session has taken at most a full buffer and an accumulator (R27, R28). -/
theorem Inv.taken (h : Inv s) (ho : s.fsm = .awaitFirst ∨ s.fsm = .matching) (ha : answersOk n s) :
    Taken s n 0 2047 (countPixel s) := by
  have h7 := (h.opened ho).packer.bitsHigh
  exact ((Taken.refl ha).mono (Nat.le_refl _) (by omega)).congr ⟨rfl, rfl, rfl⟩ rfl rfl

/-- The pixel's own processing in a legal open session: at most one transaction (R125, R134). -/
theorem exec_push_pixel (pixel : Byte) (h : Inv s) (ho : s.fsm = .awaitFirst ∨ s.fsm = .matching)
    (ha : answersOk n s) :
    ∃ r, exec (.push pixel) s = .next (pushEnd r) ∧ r.Writes (PixelDone n s) (WriteFailed s n 1) := by
  obtain ⟨r, hpixel, hends⟩ := pushPixel_ends pixel h ho
  obtain ⟨hclosed, hdone⟩ : ¬ (s.fsm = .idle ∨ s.fsm = .poisoned) ∧ s.fsm ≠ .flushed := by
    rcases ho with ho | ho <;> simp [ho]
  have hwrites := (h.taken ho ha).pushPixel_writes
    (fun hf => countPixel_matching (h.matching (ho.resolve_left hf))) (by decide) hpixel
  refine ⟨r, ?_, (hwrites.and_ends hends).imp fun t ⟨⟨hkept, htaken⟩, hm⟩ => ⟨hm, hkept, htaken⟩⟩
  rw [exec, execPush, if_neg hclosed, if_neg hdone, pushSession, hpixel]

/-- A PUSH with pixels still to come: the session goes on, or its one transaction failed (R125, R134). -/
theorem exec_push_more (pixel : Byte) (h : Inv s) (ho : s.fsm = .awaitFirst ∨ s.fsm = .matching)
    (hq : 1 < s.quota.toNat) (ha : answersOk n s) :
    ∃ r, exec (.push pixel) s = .next (finish r) ∧ r.Writes (PushedOn n s) (WriteFailed s n 1) := by
  obtain ⟨r, hexec, hwrites⟩ := exec_push_pixel pixel h ho ha
  have hterm : (r.andThen terminate).Writes (PixelDone n s) (WriteFailed s n 1) := by
    refine hwrites.andThen fun t ht => ?_
    obtain ⟨_, _, _, hquota⟩ := ht.kept.regs
    rw [terminate, if_neg (by rw [hquota]; exact (countPixel_quota_left hq).2)]
    exact ht
  refine ⟨_, hexec, hterm.andThen fun t ⟨hm, hkept, htaken⟩ => ?_⟩
  obtain ⟨payload, ⟨full, hfull, hsent, rfl⟩, _, hbits⟩ := htaken
  rw [List.length_append, flatten_length_of_full hfull] at hbits
  have hbpp : t.bpp = s.bpp := hkept.regs.1
  exact ⟨hm.matching, hbpp ▸ respondOk_of_open (.inr hm.matching), full.map frame, hsent.congr rfl rfl rfl,
    by rw [List.length_map]; omega⟩

/-- The PUSH of the last pixel: the session is complete, or one of its transactions failed (R131, R134). -/
theorem exec_push_last (pixel : Byte) (h : Inv s) (ho : s.fsm = .awaitFirst ∨ s.fsm = .matching) (hq : s.quota = 1)
    (ha : answersOk n s) :
    ∃ r, exec (.push pixel) s = .next (finish r) ∧ r.Writes (PushedLast n s) (WriteFailed s n 3) := by
  obtain ⟨r, hexec, hwrites⟩ := exec_push_pixel pixel h ho ha
  have hspent : (countPixel s).quota = 0 := by rw [countPixel_quota, hq]; rfl
  have hterm : (r.andThen terminate).Writes
      (fun t => (t.fsm = .flushed ∧ SessionKept (countPixel s) t ∧ ImageSent s n t) ∧ Inv t) (WriteFailed s n 3) := by
    refine (hwrites.weaken (by decide)).andThen fun t ht => ?_
    obtain ⟨_, _, _, hquota⟩ := ht.kept.regs
    have hend := ht.taken.terminate_writes ht.matching (hquota.trans hspent) (by decide)
    exact (hend.imp fun u ⟨hf, hkept, hsent⟩ => ⟨hf, ht.kept.trans hkept, hsent⟩).and_ends (terminate_ends ht.matching)
  refine ⟨_, hexec, hterm.andThen fun t ⟨⟨hf, hkept, w, hsent, hshape⟩, hinv⟩ => ?_⟩
  have hbpp : t.bpp = s.bpp := hkept.regs.1
  exact ⟨hf, hinv.respondOk, hkept.trans (.of_silent rfl rfl rfl rfl ⟨rfl, rfl, rfl⟩ rfl),
    hbpp ▸ respondOk_of_flushed hf, w, hsent.congr rfl rfl rfl, hshape⟩

end Push

end Sys2Proof.Machine
end

section
/-!
PROOF. A PUSH by how it ends (spec/41_code_emitter.md R121, R128 to R131, R134): the two kinds of miss, the last pixel,
and the transition table.
-/

namespace Sys2Proof.Machine

section Endings

variable {s t : State} {p : Byte}

/-! ### A miss -/

/-- What a session holds once a miss has emitted its data code (R128, R161). -/
structure PrefixEmitted (s t : State) : Prop where
  run : emitData (countPixel s).pendingPrefix (countPixel s) = .done t
  data : DataEmitted (countPixel s) t
  kept : SessionKept (countPixel s) t
  taken : Taken s 1 1 2059 t
  bits : Wire.bitsSoFar t = Wire.bitsSoFar s ++ Wire.valueBits s.runningBits.toNat s.pendingPrefix.toNat
  width : t.runningBits.toNat = grownBits s

/-- One answer is enough for the data code of a miss (R134). -/
theorem Inv.prefixEmitted (h : Inv s) (hf : s.fsm = .matching) (ha : answersOk 1 s) : ∃ t, PrefixEmitted s t := by
  have hm : Matching (countPixel s) := countPixel_matching (h.matching hf)
  obtain ⟨t, hrun, hdata, hkept, htaken⟩ := ((h.taken (.inr hf) ha).emitData_writes hm.session hm.width
    hm.held.assigned (by decide)).completes (Nat.le_refl 1)
  obtain ⟨_, hbits, _, hwidth, _⟩ := emitData_spec hm.session.packer (hm.width.bits_le h.params)
    (hm.width.code_fits hm.held.assigned) (lzBits_le h.params) hrun
  exact ⟨t, hrun, hdata, hkept, htaken, hbits, hwidth⟩

theorem PrefixEmitted.isSaturated_iff (ht : PrefixEmitted s t) :
    isSaturated t = true ↔ s.runningCode.toNat = s.params.lzMaxCode := by
  have hcode : t.runningCode = s.runningCode := ht.data.code
  have hparams : t.params = s.params := ht.data.params
  rw [isSaturated, beq_iff_eq, hcode, hparams]

/-- What a miss does once its data code is out: clear a saturated dictionary, or insert (R128 to R130). -/
theorem PrefixEmitted.pushPixel_eq (ht : PrefixEmitted s t) (hf : s.fsm = .matching)
    (hmiss : dictRead s (keyOf s.pendingPrefix p) = none) :
    pushPixel p (countPixel s) = if isSaturated t then .ok (pushSaturated (setPrefix (pixelCode p) t))
      else pushInsert (keyOf s.pendingPrefix p) (setPrefix (pixelCode p) t) := by
  have hread : dictRead (countPixel s) (keyOf (countPixel s).pendingPrefix p) = none := hmiss
  rw [pushPixel, if_neg (by simp [hf]), pushMatching, hread]
  exact pushMiss_of_done ht.run

/-- Below saturation a miss inserts the key formed before the data code (R130). -/
theorem PrefixEmitted.inserts (ht : PrefixEmitted s t) (h : Inv s) (hf : s.fsm = .matching)
    (hp : p.toNat < 2 ^ s.bpp.toNat) (hmiss : dictRead s (keyOf s.pendingPrefix p) = none)
    (hlt : s.runningCode.toNat < s.params.lzMaxCode) :
    pushPixel p (countPixel s) = .ok (.done (inserted (keyOf s.pendingPrefix p) (setPrefix (pixelCode p) t))) ∧
      Matching (inserted (keyOf s.pendingPrefix p) (setPrefix (pixelCode p) t)) := by
  have hm : Matching (countPixel s) := countPixel_matching (h.matching hf)
  obtain ⟨habsent, hroom⟩ := ht.data.insert_room (pixelCode p) hm.width hm.entries hmiss
  refine ⟨?_, inserted_matching (s := countPixel s) hm hp hmiss hlt ht.data⟩
  rw [ht.pushPixel_eq hf hmiss, if_neg (mt ht.isSaturated_iff.mp (Nat.ne_of_lt hlt)), pushInsert_ok habsent hroom]

/-- What the insert makes of width, code and dictionary (R103, R130). -/
theorem PrefixEmitted.inserted_spec (ht : PrefixEmitted s t) (key : Key) (c : Code) (hlt : s.runningCode.toNat < 4096) :
    (inserted key (setPrefix c t)).runningCode.toNat = s.runningCode.toNat + 1 ∧
      dictRead (inserted key (setPrefix c t)) key = some (BitVec.ofNat 12 s.runningCode.toNat) ∧
      ∀ other, other ≠ key → dictRead (inserted key (setPrefix c t)) other = dictRead s other := by
  have hcode : t.runningCode = s.runningCode := ht.data.code
  have hdict : t.dict = s.dict := ht.data.dict
  have hnext : (wcAdvance t).runningCode.toNat = t.runningCode.toNat + 1 := wcAdvance_spec (by rwa [hcode])
  have hinserted : nextCode t = BitVec.ofNat 12 s.runningCode.toNat := by rw [nextCode, hcode, fit_eq _ hlt]
  refine ⟨hnext.trans (by rw [hcode]), ?_, fun other hne => ?_⟩
  · rw [← hinserted]
    exact storeGet_put_same _ _ _
  · rw [dictRead, dictRead, ← hdict]
    exact storeGet_put_other _ _ _ fun heq => hne (BitVec.eq_of_toNat_eq heq)

/-- A saturated miss emits the clear code at the grown width, and one answer is enough for both codes (R129, R134). -/
theorem PrefixEmitted.clears (ht : PrefixEmitted s t) (h : Inv s) (hf : s.fsm = .matching)
    (hmiss : dictRead s (keyOf s.pendingPrefix p) = none) (hsat : s.runningCode.toNat = s.params.lzMaxCode) :
    ∃ u, pushPixel p (countPixel s) = .ok (.done (dictClearAll (wcInit u))) ∧ Session u ∧ sameControl s u ∧
      SessionKept (countPixel s) u ∧ u.pendingPrefix = pixelCode p ∧
      Wire.bitsSoFar u = Wire.bitsSoFar s ++ Wire.valueBits s.runningBits.toNat s.pendingPrefix.toNat ++
        Wire.valueBits (grownBits s) s.clearCode.toNat := by
  have hm : Matching (countPixel s) := countPixel_matching (h.matching hf)
  have hset : Session (setPrefix (pixelCode p) t) := setPrefix_session _ ht.data.session
  have hfit := (ht.data.special_fits hm.session.regs hm.width).1
  have htaken : Taken s 1 1 2059 (setPrefix (pixelCode p) t) := ht.taken.congr ⟨rfl, rfl, rfl⟩ rfl rfl
  obtain ⟨u, hemit, _, hu, hk⟩ :=
    (htaken.emitSpecial_writes hset ht.data.bits hfit (by decide)).completes (Nat.le_refl 1)
  obtain ⟨_, hbits, _⟩ := pack_spec hset.packer ht.data.bits hfit hemit
  have hkept : SessionKept (countPixel s) (setPrefix (pixelCode p) t) :=
    ht.kept.trans (.of_silent rfl rfl rfl rfl ⟨rfl, rfl, rfl⟩ rfl)
  obtain ⟨hfsm, hcause⟩ := ht.data.control
  obtain ⟨_, hclear, _⟩ := ht.kept.regs
  obtain ⟨_, _, _, _, hprefix⟩ := hk.session
  refine ⟨u, ?run, hu, ⟨hk.fsm.trans hfsm, hk.cause.trans hcause⟩, hkept.trans hk.sessionKept, hprefix, ?bits⟩
  case run =>
    rw [ht.pushPixel_eq hf hmiss, if_pos (ht.isSaturated_iff.mpr hsat), pushSaturated, setPrefix_clearCode, hemit,
      andThen_done]
  case bits =>
    rw [← ht.bits, ← ht.width, ← countPixel_clearCode, ← hclear, ← specialCode_toNat]
    exact hbits

end Endings

/-- Settles O17: the data code is emitted, and below saturation the key formed before it is inserted. -/
theorem pushOrdinaryMissInserts : Obligations.PushOrdinaryMissInserts := by
  rintro pixel s key h hf hq rfl hmiss hunsaturated ha
  have hlt := Nat.lt_of_le_of_ne (h.matching hf).width.codeHigh hunsaturated
  obtain ⟨hcount, hleft⟩ := countPixel_quota_left hq
  obtain ⟨u, hu⟩ := h.prefixEmitted hf ha
  obtain ⟨hpixel, hmatching⟩ := hu.inserts h hf (maskPixel_lt s.bpp pixel) hmiss hlt
  obtain ⟨hcode, hentry, hothers⟩ := hu.inserted_spec (keyOf s.pendingPrefix (maskPixel s.bpp pixel))
    (pixelCode (maskPixel s.bpp pixel)) (Nat.lt_of_lt_of_le hlt (lzMaxCode_le h.params))
  obtain ⟨hb, hclear, heof, hquota⟩ := hu.kept.regs
  have hbpp : u.bpp = s.bpp := hb
  have hleft' : u.quota ≠ 0 := by rwa [hquota]
  have hcount' : u.quota.toNat + 1 = s.quota.toNat := by rwa [hquota]
  refine ⟨_, exec_push_goes_on (.inr hf) hpixel hleft', hu.data.control, ?prefixIs, hcount', hb, hclear, heof, hcode,
    hu.width, hmatching.width.threshold.trans (congrArg (2 ^ ·) hu.width), hentry, hothers,
    (bitsSoFar_congr rfl ⟨rfl, rfl⟩ rfl).trans hu.bits, hu.kept.host, hu.kept.reply,
    hbpp ▸ respondOk_of_open (.inr hmatching.matching)⟩
  case prefixIs =>
    rw [respondOk_pendingPrefix, wcAdvance_pendingPrefix, dictPut_pendingPrefix, setPrefix_pendingPrefix,
      pixelCode_toNat, maskPixel_toNat]

/-- Settles O18: after the data code the clear code is emitted at the grown width, and both restart behind it. -/
theorem pushSaturatedMissClears : Obligations.PushSaturatedMissClears := by
  intro pixel s h hf hq hmiss hsaturated ha
  obtain ⟨hcount, hleft⟩ := countPixel_quota_left hq
  obtain ⟨t, ht⟩ := h.prefixEmitted hf ha
  obtain ⟨u, hpixel, hsession, hcontrol, hkept, hprefix, hbits⟩ := ht.clears h hf hmiss hsaturated
  obtain ⟨hcode, hwidth, hmax⟩ := wcInit_spec (Nat.le_trans hsession.regs.bppHigh (by decide) : u.bpp.toNat ≤ 11)
  obtain ⟨hb, hclear, heof, hquota⟩ := hkept.regs
  have hbpp : u.bpp = s.bpp := hb
  have heof' : u.eofCode = s.eofCode := heof
  have hleft' : u.quota ≠ 0 := by rwa [hquota]
  have hcount' : u.quota.toNat + 1 = s.quota.toNat := by rwa [hquota]
  rw [heof'] at hcode
  rw [hbpp] at hwidth hmax
  refine ⟨_, exec_push_goes_on (.inr hf) hpixel hleft', hcontrol, ?prefixIs, hcount', hb, hclear, heof, hcode, hwidth,
    hmax, fun _ => rfl, (bitsSoFar_congr rfl ⟨rfl, rfl⟩ rfl).trans hbits, hkept.host, hkept.reply,
    hbpp ▸ respondOk_of_open (.inr (hcontrol.1.trans hf))⟩
  case prefixIs =>
    rw [respondOk_pendingPrefix, dictClearAll_pendingPrefix, wcInit_pendingPrefix, hprefix, pixelCode_toNat,
      maskPixel_toNat]

/-- Settles O19: three answers are enough for the image data, and the state left is legal and completed. -/
theorem pushLastPixelCompletesSession : Obligations.PushLastPixelCompletesSession := by
  intro pixel s h ho hq ha
  obtain ⟨r, hexec, hwrites⟩ := exec_push_last pixel h ho hq ha
  obtain ⟨t, rfl, ht⟩ := hwrites.completes (Nat.le_refl 3)
  obtain ⟨_, hspent, ⟨hvalue, hbits⟩, hempty⟩ := ht.legal.completed ht.fsm
  obtain ⟨w, hsent, hshape, hlen⟩ := ht.sent
  obtain ⟨hb, hclear, heof, _⟩ := ht.kept.regs
  exact ⟨t, w, hexec, ht.fsm, ht.legal.cause_none (by simp [ht.fsm]), hspent, hvalue, hbits, hempty, hsent.trace,
    hsent.stream, hshape, hlen, hb, hclear, heof, ht.kept.host, ht.kept.reply, ht.response⟩

section Endings

variable {P E : State → Prop} {r : Run} {base s : State} {n m : Nat}

/-! ### The trace of a PUSH -/

/-- What a command leaves: its operations completed, or SinkWriteFailure was raised (R206). -/
theorem Run.Writes.finish_cases (h : r.Writes P E) :
    P (finish r) ∨ ∃ u, finish r = raiseError .sinkWriteFailure u ∧ E u := by
  cases r with
  | done t => exact .inl h
  | raised k t =>
    obtain ⟨rfl, ht⟩ := h
    exact .inr ⟨t, rfl, ht⟩

/-- The transactions of a command that raised, the failed one among them (R183, R208). -/
theorem WriteFailed.raised (h : WriteFailed base n m s) :
    ∃ w, (raiseError .sinkWriteFailure s).trace = base.trace ++ w ∧ w.length ≤ m ∧ ∃ e ∈ w, e.2 = .fail := by
  obtain ⟨w, failed, htrace, _, hlen⟩ := h
  refine ⟨w.map (fun b => (b, .ok)) ++ [(failed, .fail)], ?_, ?_, _, List.mem_append_right _ List.mem_cons_self, rfl⟩
  · rw [(raiseError_outside _ s).1, htrace, List.append_assoc]
  · rwa [List.length_append, List.length_map, List.length_singleton]

theorem two_le_of_isImageData {w : List (List Byte)} (h : Wire.isImageData w = true) : 2 ≤ w.length := by
  match w with
  | [] | [_] => cases h
  | _ :: _ :: _ => exact Nat.le_add_left 2 _

theorem Inv.quota_cases (h : Inv s) (ho : s.fsm = .awaitFirst ∨ s.fsm = .matching) :
    s.quota = 1 ∨ 1 < s.quota.toNat := by
  have hleft := (h.opened ho).quotaLeft
  by_cases hq : s.quota = 1
  · exact .inl hq
  · have hne : s.quota.toNat ≠ 1 := fun h1 => hq (BitVec.eq_of_toNat_eq h1)
    exact .inr (by omega)

/-- Everything a PUSH of a legal open session can do: complete the session, go on, or fail at a write (R121, R125). -/
theorem exec_push_cases (pixel : Byte) (h : Inv s) (ho : s.fsm = .awaitFirst ∨ s.fsm = .matching) :
    ∃ t, exec (.push pixel) s = .next t ∧
      ((s.quota = 1 ∧ PushedLast 0 s t) ∨ (1 < s.quota.toNat ∧ PushedOn 0 s t) ∨
        ∃ u, t = raiseError .sinkWriteFailure u ∧ WriteFailed s 0 (if s.quota = 1 then 3 else 1) u) := by
  rcases h.quota_cases ho with hq | hq
  · obtain ⟨r, hexec, hwrites⟩ := exec_push_last (n := 0) pixel h ho hq rfl
    rw [if_pos hq]
    exact ⟨_, hexec, hwrites.finish_cases.imp (⟨hq, ·⟩) .inr⟩
  · obtain ⟨r, hexec, hwrites⟩ := exec_push_more (n := 0) pixel h ho hq rfl
    rw [if_neg fun h1 => by simp [h1] at hq]
    exact ⟨_, hexec, .inr (hwrites.finish_cases.imp_left (⟨hq, ·⟩))⟩

end Endings

/-- Settles O21: the transactions of the PUSH, whether it completed, went on or failed. -/
theorem pushOutputBounds : Obligations.PushOutputBounds := by
  intro pixel s t h ho hexec
  obtain ⟨t', hexec', hcases⟩ := exec_push_cases pixel h ho
  obtain rfl : t = t' := by
    rw [hexec] at hexec'
    injection hexec'
  rcases hcases with ⟨hq, ht⟩ | ⟨_, ht⟩ | ⟨u, rfl, hfailed⟩
  · obtain ⟨w, hsent, hshape, hlen⟩ := ht.sent
    rw [← List.length_map (f := fun b => (b, Config.Answer.ok))] at hlen
    refine ⟨_, hsent.trace, hlen, fun hmore => ?_, fun _ => ?_⟩
    · simp [hq] at hmore
    · rw [List.length_map]
      exact two_le_of_isImageData hshape
  · obtain ⟨w, hsent, hlen⟩ := ht.sent
    rw [← List.length_map (f := fun b => (b, Config.Answer.ok))] at hlen
    refine ⟨_, hsent.trace, hlen.trans (by decide), fun _ => hlen, fun hf => ?_⟩
    rw [ht.fsm] at hf
    cases hf
  · obtain ⟨w, htrace, hlen, _⟩ := hfailed.raised
    refine ⟨w, htrace, hlen.trans (by split_ifs <;> decide), fun hmore => ?_, fun hf => ?_⟩
    · rwa [if_neg fun h1 => by simp [h1] at hmore] at hlen
    · cases hf

section Status

variable {s t u : State}

/-! ### The status of a response (R82) -/

theorem respondOk_status (s : State) : statusIs (respondOk s) none := congrArg some (responseWord_status s none)

theorem raiseError_status (k : ErrorKind) (s : State) : statusIs (raiseError k s) (some k) := by
  obtain ⟨_, _, hresponse⟩ := raiseError_control k s
  rw [statusIs, hresponse, Option.map_some, BitVec.extractLsb'_append_eq_right]

/-- A response of `bpp` and done alone has the status OK. -/
theorem status_of_response {bpp x : BitVec 4} (h : t.response = some (bpp ++ x)) (hx : x.extractLsb' 0 3 = 0) :
    statusIs t none := by
  have hlow : ∀ a b : BitVec 4, (a ++ b).extractLsb' 0 3 = b.extractLsb' 0 3 := by decide
  rw [statusIs, h, Option.map_some, hlow, hx]
  rfl

/-! ### Failed writes in the trace -/

theorem Acknowledged.no_failure {n : Nat} {w : List (List Byte)} (h : Acknowledged s n w t) :
    ¬ ∃ e ∈ t.trace.drop s.trace.length, e.2 = .fail := by
  rw [h.trace, List.drop_left]
  simp

theorem WriteFailed.failure {n m : Nat} (h : WriteFailed s n m u) :
    ∃ e ∈ (raiseError .sinkWriteFailure u).trace.drop s.trace.length, e.2 = .fail := by
  obtain ⟨w, htrace, _, hfail⟩ := h.raised
  rwa [htrace, List.drop_left]

/-! ### The table, by command -/

/-- The BEGIN row of the table (R121). -/
theorem exec_begin_row (req : BitVec 4) (quota : BitVec 32) (s : State) : ∃ t, exec (.begin req quota) s = .next t ∧
    if legalBegin req quota = true ∧ (s.fsm = .idle ∨ s.fsm = .flushed) then t.fsm = .awaitFirst ∧ statusIs t none
    else t.fsm = .poisoned ∧ statusIs t (some .stateMisuse) := by
  rcases exec_begin_cases req quota s with ⟨hlegal, u, hexec, hu⟩ | ⟨hillegal, hexec⟩
  · refine ⟨_, hexec, ?_⟩
    rw [if_pos hlegal]
    exact ⟨hu.kept.fsm, respondOk_status u⟩
  · refine ⟨_, hexec, ?_⟩
    rw [if_neg hillegal]
    exact ⟨rfl, raiseError_status .stateMisuse s⟩

/-- The PUSH cells of an open session (R121). -/
theorem exec_push_row (pixel : Byte) (h : Inv s) (ho : s.fsm = .awaitFirst ∨ s.fsm = .matching) :
    ∃ t, exec (.push pixel) s = .next t ∧
      if ∃ e ∈ t.trace.drop s.trace.length, e.2 = .fail then t.fsm = .poisoned ∧ statusIs t (some .sinkWriteFailure)
      else if s.quota = 1 then t.fsm = .flushed ∧ statusIs t none
      else t.fsm = .matching ∧ statusIs t none := by
  obtain ⟨t, hexec, hcases⟩ := exec_push_cases pixel h ho
  refine ⟨t, hexec, ?_⟩
  rcases hcases with ⟨hq, ht⟩ | ⟨hq, ht⟩ | ⟨u, rfl, hfailed⟩
  · obtain ⟨w, hsent, _⟩ := ht.sent
    rw [if_neg hsent.no_failure, if_pos hq]
    exact ⟨ht.fsm, status_of_response ht.response rfl⟩
  · obtain ⟨w, hsent, _⟩ := ht.sent
    rw [if_neg hsent.no_failure, if_neg fun h1 => by simp [h1] at hq]
    exact ⟨ht.fsm, status_of_response ht.response rfl⟩
  · rw [if_pos hfailed.failure]
    exact ⟨rfl, raiseError_status .sinkWriteFailure u⟩

end Status

/-- Settles O23: each command's row, PUSH by the state it arrives in. -/
theorem transitionTable : Obligations.TransitionTable := by
  intro s h
  refine ⟨⟨_, rfl, rfl, respondOk_status (resetCore s)⟩, fun req quota => exec_begin_row req quota s,
    fun pixel => ?push, fun w rest hw hi => ?reserved⟩
  case push =>
    cases hf : s.fsm with
    | idle => exact ⟨_, exec_push_closed (.inl hf), rfl, raiseError_status .stateMisuse s⟩
    | poisoned => exact ⟨_, exec_push_closed (.inr hf), rfl, raiseError_status .stateMisuse s⟩
    | flushed => exact ⟨_, exec_push_flushed hf, rfl, raiseError_status .dataOverrun s⟩
    | awaitFirst => exact exec_push_row pixel h (.inl hf)
    | matching => exact exec_push_row pixel h (.inr hf)
  case reserved =>
    exact ⟨_, step_of_illegal h.noRequest hi (readCommand_of_reserved hw), rfl, raiseError_status .stateMisuse _⟩

end Sys2Proof.Machine
end

section
/-!
PROOF. The width controller's operations as steps of their own (spec/42_width_controller.md R151 to R155, R158): what
each writes, that it writes no item but S7 to S9, and where a growth check does nothing.
-/

namespace Sys2Proof.Machine

/-! ### What the width controller leaves alone -/

/-- Every item but S7 to S9 and the draws is as before. -/
abbrev widthAlone (s t : State) : Prop :=
  sameControl s t ∧ sameSession s t ∧ samePacker s t ∧ sameFramer s t ∧ sameDict s t ∧ sameSink s t ∧ sameHost s t ∧
    sameReplies s t

section Width

variable {s : State}

/-- Any values for S7 to S9 and the draws leave the other items as they are. -/
theorem widthAlone_update (s : State) (code : BitVec 13) (bits : BitVec 4) (max : BitVec 13) (draws : Nat) :
    widthAlone s { s with runningCode := code, runningBits := bits, maxCode1 := max, draws := draws } :=
  ⟨⟨rfl, rfl⟩, ⟨rfl, rfl, rfl, rfl, rfl⟩, ⟨rfl, rfl⟩, fun _ => rfl, fun _ => rfl, ⟨rfl, rfl, rfl⟩, ⟨rfl, rfl, rfl⟩,
    rfl, rfl⟩

theorem setWidth_widthAlone (n : Nat) (s : State) : widthAlone s (setWidth n s) := widthAlone_update s _ _ _ _

theorem wcInit_widthAlone (s : State) : widthAlone s (wcInit s) := widthAlone_update s _ _ _ _

theorem wcAdvance_widthAlone (s : State) : widthAlone s (wcAdvance s) := widthAlone_update s _ _ _ _

theorem wcGrow_widthAlone (s : State) : widthAlone s (wcGrow s) := by
  rcases wcGrow_cases s with ⟨_, _, hg⟩ | ⟨_, hg⟩ <;> rw [hg]
  · exact setWidth_widthAlone _ s
  · exact widthAlone_update s _ _ _ _

/-! ### Where a growth check does nothing -/

/-- Below the threshold WC.GROW changes nothing (R153). -/
theorem wcGrow_of_lt (h : s.runningCode.toNat < s.maxCode1.toNat) : wcGrow s = s :=
  if_neg fun hgrow => Nat.not_le_of_lt h hgrow.1

/-- A session starts below its threshold: `2^bpp + 2 < 2^(bpp + 1)` (R151, R158). -/
theorem SessionRegs.wcInit_below (h : SessionRegs s) : (wcInit s).runningCode.toNat < (wcInit s).maxCode1.toNat := by
  have hhigh := h.bppHigh
  have hfour : 2 ^ 2 ≤ 2 ^ s.bpp.toNat := Nat.pow_le_pow_right (by decide) h.bppLow
  obtain ⟨hcode, _, hmax⟩ := wcInit_spec (s := s) (by omega)
  rw [hcode, hmax, h.eofIs, Nat.pow_succ]
  omega

/-- The code that has reached the old threshold is below the doubled one (R156, R158). -/
theorem WidthRegs.setWidth_below (h : WidthRegs s) (hbits : s.runningBits.toNat + 1 ≤ 12) :
    (setWidth (s.runningBits.toNat + 1) s).runningCode.toNat <
      (setWidth (s.runningBits.toNat + 1) s).maxCode1.toNat := by
  have hfits := h.codeFits
  have hpos := Nat.two_pow_pos s.runningBits.toNat
  rw [h.threshold] at hfits
  rw [(setWidth_spec hbits s).2, setWidth_runningCode, Nat.pow_succ]
  omega

/-- A second growth check does nothing: the first has done nothing, or has left the code below the threshold (R158). -/
theorem WidthRegs.wcGrow_idem (h : WidthRegs s) (hp : s.params.Valid) : wcGrow (wcGrow s) = wcGrow s := by
  rcases wcGrow_cases s with ⟨_, hbelow, hg⟩ | ⟨_, hg⟩
  · rw [hg]
    exact wcGrow_of_lt (h.setWidth_below (Nat.le_trans hbelow (lzBits_le hp)))
  · rw [hg, hg]

end Width

/-- Settles O49: the two halves are what WC.INIT establishes, and what growth and the next code keep. -/
theorem widthInvariantKept : Obligations.WidthInvariantKept :=
  fun _ hp hr => ⟨wcInit_widthRegs hp hr, fun hw hroom => wcAdvance_wcGrow_widthRegs hp hw hroom⟩

/-- Settles O50: after WC.INIT the code is below the threshold, and growth is idempotent on the width invariant. -/
theorem growthReadingsAgree : Obligations.GrowthReadingsAgree :=
  fun _ hp hr => ⟨wcGrow_of_lt hr.wcInit_below, fun hw => hw.wcGrow_idem hp⟩

/-- Settles O44: the code after `eofCode` always fits, the width while `bpp` is below 15, the threshold below 12. -/
theorem wcInitStartsWidths : Obligations.WcInitStartsWidths := by
  intro s
  have heof := s.eofCode.isLt
  refine ⟨wcInit s, rfl, ?code, fun hbpp => ?bits, fun hbpp => ?threshold, wcInit_widthAlone s⟩
  case code => rw [wcInit_runningCode, fit_toNat _ (by omega)]
  case bits => rw [wcInit_runningBits, fit_toNat _ (by omega)]
  case threshold =>
    obtain ⟨_, _, hmax⟩ := wcInit_spec (Nat.le_of_lt_succ hbpp)
    exact hmax

/-- Settles O45: valid parameters keep `LZ_MAX_CODE` within 4096, so the next code fits its register. -/
theorem wcAdvanceCountsOne : Obligations.WcAdvanceCountsOne := by
  refine ⟨rfl, fun s hp hroom => ?_⟩
  have hcode := wcAdvance_spec (Nat.lt_of_lt_of_le hroom (lzMaxCode_le hp))
  exact ⟨wcAdvance s, rfl, hcode, hcode.trans_le hroom, rfl, rfl, wcAdvance_widthAlone s⟩

/-- Settles O46: WC.GROW sets the next width and its threshold, or nothing. -/
theorem wcGrowWidensAtThreshold : Obligations.WcGrowWidensAtThreshold := by
  intro s hlz
  obtain ⟨hbits, hcode⟩ := wcGrow_spec hlz
  refine ⟨wcGrow s, rfl, hcode, hbits, fun hgrow => ?widened, fun hno => if_neg hno, wcGrow_widthAlone s⟩
  case widened =>
    have hg : wcGrow s = setWidth (s.runningBits.toNat + 1) s := if_pos hgrow
    rw [hg]
    exact (setWidth_spec (Nat.le_trans hgrow.2 hlz) s).2

end Sys2Proof.Machine
end

section
/-!
PROOF. The code width within a session (spec/42_width_controller.md R150, R151): a PUSH after which the session goes on
has widened the codes or left them, or has cleared the dictionary and started the widths again.
-/

namespace Sys2Proof.Machine

/-- From `s` to `t` the width has not fallen, or widths and dictionary have started again (R151). -/
abbrev WidthMoves (s t : State) : Prop :=
  s.runningBits.toNat ≤ t.runningBits.toNat ∨
    (t.runningBits.toNat = s.bpp.toNat + 1 ∧ t.runningCode.toNat = s.eofCode.toNat + 1 ∧ t.dict = [])

/-- What a data code makes of the width, and the registers a clear starts from (R151, R161). -/
structure Widened (s t : State) : Prop where
  bits : s.runningBits.toNat ≤ t.runningBits.toNat
  bpp : t.bpp = s.bpp
  eofCode : t.eofCode = s.eofCode

section Push

variable {s t : State} {r : Run} {p : Byte} {key : Key}

/-! ### The operations of a miss -/

theorem wcGrow_widens (h : s.params.lzBits ≤ 12) : s.runningBits.toNat ≤ (wcGrow s).runningBits.toNat := by
  rw [(wcGrow_spec h).1, grownBits]
  split_ifs
  · exact Nat.le_succ _
  · exact Nat.le_refl _

theorem emitData_widens (c : Code) (h : s.params.lzBits ≤ 12) : (emitData c s).Ends (Widened s) (fun _ => True) := by
  refine ((pack_outside c s).mono (fun _ ht => ht) fun _ _ => trivial).andThen fun u hk => ?_
  obtain ⟨hb, _, he, _⟩ := hk.session
  obtain ⟨_, ⟨gb, _, ge, _⟩, _⟩ := wcGrow_kept u
  obtain ⟨_, hbits, _⟩ := hk.width
  refine ⟨?_, gb.trans hb, ge.trans he⟩
  rw [← hbits]
  exact wcGrow_widens (by rwa [hk.params])

/-- A clear starts width, code and dictionary again, whatever the width before it (R129, R151). -/
theorem pushSaturated_restarts (h : s.bpp.toNat ≤ 11) :
    (pushSaturated s).Ends
      (fun t => t.runningBits.toNat = s.bpp.toNat + 1 ∧ t.runningCode.toNat = s.eofCode.toNat + 1 ∧ t.dict = [])
      (fun _ => True) := by
  refine ((pack_outside _ s).mono (fun _ ht => ht) fun _ _ => trivial).andThen fun u hk => ?_
  obtain ⟨hb, _, he, _⟩ := hk.session
  obtain ⟨hcode, hbits, _⟩ := wcInit_spec (s := u) (by rwa [hb])
  exact ⟨hbits.trans (by rw [hb]), hcode.trans (by rw [he]), rfl⟩

/-- An insert leaves the width alone (R130, R152). -/
theorem pushInsert_keeps_runningBits (h : pushInsert key s = .ok r) :
    ∃ t, r = .done t ∧ t.runningBits = s.runningBits := by
  rw [pushInsert] at h
  rcases dictWrite_cases key (nextCode s) s with ⟨_, _, hw⟩ | ⟨_, _, hw⟩ | ⟨_, hw⟩ <;> rw [hw] at h <;> cases h
  exact ⟨_, rfl, rfl⟩

/-! ### One pixel -/

theorem pushMiss_widthMoves (hz : s.params.lzBits ≤ 12) (hb : s.bpp.toNat ≤ 11) (h : pushMiss p s = .ok r) :
    r.Ends (WidthMoves s) (fun _ => True) := by
  have hdata := emitData_widens s.pendingPrefix hz
  cases hrun : emitData s.pendingPrefix s with
  | raised k u =>
    rw [pushMiss_of_raised hrun] at h
    cases h
    trivial
  | done u =>
    rw [hrun] at hdata
    obtain ⟨hbits, hbpp, heof⟩ : Widened s u := hdata
    rw [pushMiss_of_done hrun] at h
    split_ifs at h
    · cases h
      refine (pushSaturated_restarts (s := setPrefix (pixelCode p) u) (by rwa [setPrefix_bpp, hbpp])).mono
        (fun t ht => .inr ?_) fun _ ht => ht
      rwa [setPrefix_bpp, setPrefix_eofCode, hbpp, heof] at ht
    · obtain ⟨t, rfl, ht⟩ := pushInsert_keeps_runningBits h
      exact .inl (by rwa [ht])

/-- The first pixel and a hit leave the width alone; a miss widens it or starts it again (R125). -/
theorem pushPixel_widthMoves (hz : s.params.lzBits ≤ 12) (hb : s.bpp.toNat ≤ 11) (h : pushPixel p s = .ok r) :
    r.Ends (WidthMoves s) (fun _ => True) := by
  unfold pushPixel pushMatching at h
  split at h
  · cases h
    exact .inl (Nat.le_refl _)
  · split at h
    · cases h
      exact .inl (Nat.le_refl _)
    · exact pushMiss_widthMoves hz hb h

/-! ### The command -/

/-- A PUSH of an open session is its pixel's own processing and the end of the command (R125). -/
theorem exec_push_open {pixel : Byte} (ho : s.fsm = .awaitFirst ∨ s.fsm = .matching)
    (h : exec (.push pixel) s = .next t) :
    ∃ r, pushPixel (maskPixel s.bpp pixel) (countPixel s) = .ok r ∧ t = pushEnd r := by
  obtain ⟨hclosed, hdone⟩ : ¬ (s.fsm = .idle ∨ s.fsm = .poisoned) ∧ s.fsm ≠ .flushed := by
    rcases ho with ho | ho <;> simp [ho]
  rw [exec, execPush, if_neg hclosed, if_neg hdone, pushSession] at h
  cases hr : pushPixel (maskPixel s.bpp pixel) (countPixel s) with
  | error f =>
    rw [hr] at h
    cases h
  | ok r =>
    rw [hr] at h
    cases h
    exact ⟨r, rfl, rfl⟩

/-- With the quota spent the session completes, or a write fails (R131). -/
theorem terminate_retires (hq : s.quota = 0) : (terminate s).Ends (fun t => t.fsm = .flushed) (fun _ => True) := by
  have hany : ∀ r : Run, r.Ends (fun _ => True) (fun _ => True) := fun r => Run.ends_of_last trivial
  rw [terminate, if_pos hq]
  exact (hany _).andThen fun t _ => (hany _).andThen fun u _ => (hany _).andThen fun v _ => rfl

/-- A PUSH that ends in MATCHING has completed its pixel's processing and has pixels still to come (R125, R131). -/
theorem pushEnd_matching (h : (pushEnd r).fsm = .matching) : ∃ u, r = .done u ∧ pushEnd r = respondOk u := by
  cases r with
  | raised k u => cases h
  | done u =>
    by_cases hq : u.quota = 0
    · have hend := terminate_retires hq
      rw [pushEnd, andThen_done] at h
      cases hrun : terminate u with
      | raised k v =>
        rw [hrun] at h
        cases h
      | done v =>
        rw [hrun] at h hend
        have hflushed : v.fsm = .flushed := hend
        rw [andThen_done, finish_done, respondOk_fsm, hflushed] at h
        cases h
    · exact ⟨u, rfl, pushEnd_of_quota hq⟩

end Push

/-- Settles O22: a PUSH that leaves the session in MATCHING leaves the widths its pixel has made. -/
theorem widthFallsOnlyAtClear : Obligations.WidthFallsOnlyAtClear := by
  intro pixel s t h hf hexec hmatching
  obtain ⟨r, hpixel, rfl⟩ := exec_push_open (.inr hf) hexec
  obtain ⟨u, rfl, hend⟩ := pushEnd_matching hmatching
  have hbpp : s.bpp.toNat ≤ 11 := Nat.le_trans (h.opened (.inr hf)).regs.bppHigh (by decide)
  have hmoves : WidthMoves (countPixel s) u := pushPixel_widthMoves (s := countPixel s) (lzBits_le h.params) hbpp hpixel
  rw [hend]
  exact hmoves

end Sys2Proof.Machine
end

section
/-!
PROOF. The framer's operations as steps of their own (spec/44_subblock_framer.md R180 to R182, R187): what SB.PUT and
SB.TERMINATE do by the count and by the sink's answers, and where a failed write ends them.
-/

namespace Sys2Proof.Machine

/-- A core in which the write of `bytes` has failed, `rest` being the answers still to come: the transaction is the last
one, and the error has been raised (R183, R206). -/
abbrev WritePoisons (bytes : List Byte) (rest : List Config.Answer) (s t : State) : Prop :=
  poisonedBy .sinkWriteFailure s t ∧ t.trace = s.trace ++ [(bytes, .fail)] ∧ t.sinkScript = rest ∧ sameHost s t

section Framer

variable {s : State} {b : Byte} {rest : List Config.Answer}

/-! ### SB.PUT -/

/-- Below a full buffer there is a payload slot for the next byte (R181). -/
theorem nextSlot_ne_zero (h : s.sbCount.toNat < 255) : s.sbCount + 1 ≠ 0 := by
  have hcount : (s.sbCount + 1).toNat = s.sbCount.toNat + 1 := by
    have hput := (putByte_spec h 0).1
    rwa [(putByte_spec h 0).2] at hput
  intro h0
  rw [h0] at hcount
  exact absurd hcount.symm (Nat.succ_ne_zero _)

theorem putByte_read_next (h : s.sbCount.toNat < 255) (b : Byte) : bufRead (putByte b s) (s.sbCount + 1) = b :=
  bufWrite_read_same _ (nextSlot_ne_zero h) b

theorem putByte_read_other (h : s.sbCount.toNat < 255) (b : Byte) {i : BitVec 8} (h0 : i ≠ 0)
    (hi : i ≠ s.sbCount + 1) : bufRead (putByte b s) i = bufRead s i := by
  rw [putByte, bufWrite_read_other _ (nextSlot_ne_zero h) hi, bufRead, bufRead, if_neg h0, if_neg h0]

/-- Below a full buffer SB.PUT is its second part alone (R181). -/
theorem sbPut_of_room (h : s.sbCount.toNat < 255) : sbPut b s = .done (putByte b s) := by
  rw [sbPut, putRoom, if_neg (Nat.ne_of_lt h), andThen_done]

/-- The full block is acknowledged, and the byte starts a new one (R180, R181). -/
theorem sbPut_of_full_ok (h : s.sbCount.toNat = 255) (ha : nextAnswer s = .ok) :
    sbPut b s = .done (putByte b (bufEmpty (sinkAnswered (heldBlock s) s))) := by
  rw [sbPut, putRoom, if_pos h, sinkWrite_ok ha, andThen_done, andThen_done]

/-- The write of the full block fails, and the byte is not stored (R181). -/
theorem sbPut_of_full_fail (h : s.sbCount.toNat = 255) (ha : nextAnswer s = .fail) :
    sbPut b s = .raised .sinkWriteFailure (sinkAnswered (heldBlock s) s) := by
  rw [sbPut, putRoom, if_pos h, sinkWrite_fail ha, andThen_raised, andThen_raised]

theorem heldBlock_of_full (h : s.sbCount.toNat = 255) : heldBlock s = 0xFF :: heldBytes s := by
  rw [heldBlock_eq, show s.sbCount = 0xFF from BitVec.eq_of_toNat_eq h]

/-! ### SB.TERMINATE -/

/-- An empty buffer makes no block: the TERMINATOR alone is written (R182, C5). -/
theorem sbTerminate_of_empty (h : s.sbCount = 0) : sbTerminate s = sinkWrite [0x00] s := by
  rw [sbTerminate, flushPartial, if_pos h, andThen_done]

/-- The partial block is acknowledged, and the TERMINATOR is written next (R182). -/
theorem sbTerminate_of_partial_ok (h : s.sbCount ≠ 0) (ha : nextAnswer s = .ok) :
    sbTerminate s = sinkWrite [0x00] (bufEmpty (sinkAnswered (heldBlock s) s)) := by
  rw [sbTerminate, flushPartial, if_neg h, sinkWrite_ok ha, andThen_done, andThen_done]

/-- The write of the partial block fails, and the TERMINATOR is not attempted (R182). -/
theorem sbTerminate_of_partial_fail (h : s.sbCount ≠ 0) (ha : nextAnswer s = .fail) :
    sbTerminate s = .raised .sinkWriteFailure (sinkAnswered (heldBlock s) s) := by
  rw [sbTerminate, flushPartial, if_neg h, sinkWrite_fail ha, andThen_raised, andThen_raised]

theorem heldBytes_eq_nil_iff : heldBytes s = [] ↔ s.sbCount = 0 := by
  rw [← List.length_eq_zero_iff, heldBytes_length]
  exact ⟨fun h => BitVec.eq_of_toNat_eq h, fun h => congrArg BitVec.toNat h⟩

/-- The wire format of the held payload: the count and the payload if there is one, then the TERMINATOR (R75, R76). -/
theorem blocks_heldBytes (s : State) :
    Wire.blocks (heldBytes s) = if s.sbCount = 0 then [[0x00]] else [s.sbCount :: heldBytes s, [0x00]] := by
  have hblocks := blocks_flatten (full := []) (by simp) (heldBytes_length_le s)
  rw [List.flatten_nil, List.nil_append, List.map_nil, List.nil_append, ← heldBlock_frame, heldBlock_eq] at hblocks
  rw [hblocks]
  by_cases h0 : s.sbCount = 0
  · rw [if_pos h0, if_pos (heldBytes_eq_nil_iff.mpr h0), List.nil_append]
  · rw [if_neg h0, if_neg (mt heldBytes_eq_nil_iff.mp h0), List.singleton_append]

/-! ### A failed write -/

/-- What the error of a failed write leaves (R183, R206, R208). -/
theorem raiseError_sinkAnswered (h : s.sinkScript = .fail :: rest) (bytes : List Byte) :
    WritePoisons bytes rest s (raiseError .sinkWriteFailure (sinkAnswered bytes s)) := by
  obtain ⟨htrace, _, hscript, hinput, hrequest, hparams, _⟩ :=
    raiseError_outside .sinkWriteFailure (sinkAnswered bytes s)
  refine ⟨raiseError_control .sinkWriteFailure (sinkAnswered bytes s), ?_, ?_, hinput, hrequest, hparams⟩
  · rw [htrace, sinkAnswered_trace, nextAnswer_cons h]
  · rw [hscript, sinkAnswered_sinkScript, h, List.tail_cons]

theorem exec_sbPut_fails (h : s.sinkScript = .fail :: rest) (hfull : s.sbCount.toNat = 255) :
    ∃ t, exec (.sbPut b) s = .next t ∧ WritePoisons (0xFF :: heldBytes s) rest s t := by
  refine ⟨_, ?_, raiseError_sinkAnswered h _⟩
  rw [exec, execSbPut, sbPut_of_full_fail hfull (nextAnswer_cons h), finish_raised, heldBlock_of_full hfull]

theorem exec_sbTerminate_fails_first (h : s.sinkScript = .fail :: rest) (hheld : s.sbCount ≠ 0) :
    ∃ t, exec .sbTerminate s = .next t ∧ WritePoisons (s.sbCount :: heldBytes s) rest s t := by
  refine ⟨_, ?_, raiseError_sinkAnswered h _⟩
  rw [exec, execSbTerminate, sbTerminate_of_partial_fail hheld (nextAnswer_cons h), finish_raised, heldBlock_eq]

theorem exec_sbTerminate_fails_alone (h : s.sinkScript = .fail :: rest) (hempty : s.sbCount = 0) :
    ∃ t, exec .sbTerminate s = .next t ∧ WritePoisons [0x00] rest s t := by
  refine ⟨_, ?_, raiseError_sinkAnswered h _⟩
  rw [exec, execSbTerminate, sbTerminate_of_empty hempty, sinkWrite_fail (nextAnswer_cons h), finish_raised]

/-- The TERMINATOR fails behind an acknowledged block: the failed write is that of the emptied buffer's core. -/
theorem exec_sbTerminate_fails_second (h : s.sinkScript = .ok :: .fail :: rest) (hheld : s.sbCount ≠ 0) :
    ∃ t, exec .sbTerminate s = .next t ∧
      WritePoisons [0x00] rest (bufEmpty (sinkAnswered (heldBlock s) s)) t := by
  have hnext : (bufEmpty (sinkAnswered (heldBlock s) s)).sinkScript = .fail :: rest := by
    rw [bufEmpty_sinkScript, sinkAnswered_sinkScript, h, List.tail_cons]
  refine ⟨_, ?_, raiseError_sinkAnswered hnext _⟩
  rw [exec, execSbTerminate, sbTerminate_of_partial_ok hheld (nextAnswer_cons h),
    sinkWrite_fail (nextAnswer_cons hnext), finish_raised]

end Framer

/-- Settles O54: the byte is written to the slot after the last, and the sink is given nothing. -/
theorem sbPutStoresNextSlot : Obligations.SbPutStoresNextSlot := by
  intro b s hroom
  obtain ⟨hk, hpacker, _⟩ := putByte_kept b s
  obtain ⟨htrace, hstream, hscript⟩ := putByte_outside_buffer b hroom
  refine ⟨putByte b s, ?_, (putByte_spec hroom b).1, putByte_read_next hroom b,
    fun i h0 hi => putByte_read_other hroom b h0 hi, putByte_held hroom b, hk.control, hk.session, hk.width, hpacker,
    hk.sameDict, ⟨hscript, hstream, htrace⟩, hk.host, hk.replies⟩
  rw [exec, execSbPut, sbPut_of_room hroom, finish_done]

/-- Settles O55: the acknowledged block empties the buffer, and a put into the empty buffer has room. -/
theorem sbPutWritesFullBlock : Obligations.SbPutWritesFullBlock := by
  intro b s hfull ha
  have hok : nextAnswer s = .ok := (answersOk_succ ha).1
  have hput := sbPut_of_full_ok (b := b) hfull hok
  obtain ⟨hk, hpacker, _⟩ := sbPut_kept b s
  rw [hput, last_done] at hk hpacker
  have hempty : (bufEmpty (sinkAnswered (heldBlock s) s)).sbCount.toNat < 255 := by simp
  obtain ⟨htrace, hstream, _⟩ := putByte_outside_buffer b hempty
  refine ⟨putByte b (bufEmpty (sinkAnswered (heldBlock s) s)), ?_, BitVec.eq_of_toNat_eq (putByte_spec hempty b).1, ?_,
    ?_, ?_, hk.control, hk.session, hk.width, hpacker, hk.sameDict, hk.host, hk.replies⟩
  · rw [exec, execSbPut, hput, finish_done]
  · rw [putByte_held hempty, heldBytes_bufEmpty, List.nil_append]
  · rw [htrace, bufEmpty_trace, sinkAnswered_trace, hok, heldBlock_of_full hfull]
  · rw [hstream, bufEmpty_stream, sinkAnswered_stream, streamGain_ok hok, heldBlock_of_full hfull]

/-- Settles O56: two answers are enough for the blocks of the held payload, and these are the two cases. -/
theorem sbTerminateWritesLastBlocks : Obligations.SbTerminateWritesLastBlocks := by
  intro s ha
  obtain ⟨t, hrun, hsent⟩ := (Framed.refl ha).sbTerminate_done (by decide) (heldBytes_length_le s)
  have hends := sbTerminate_ends s
  rw [hrun] at hends
  obtain ⟨⟨hk, hpacker⟩, hempty⟩ := hends
  refine ⟨t, Wire.blocks (heldBytes s), ?_, hempty, blocks_heldBytes s, hsent.trace, hsent.stream, hk.control,
    hk.session, hk.width, hpacker, hk.sameDict, hk.host, hk.replies⟩
  rw [exec, execSbTerminate, hrun, finish_done]

/-- Settles O57: each write that can fail, the second of SB.TERMINATE behind the transaction of the first. -/
theorem framerStopsAtFailedWrite : Obligations.FramerStopsAtFailedWrite := by
  refine fun b s rest => ⟨fun h => ⟨exec_sbPut_fails h, exec_sbTerminate_fails_first h,
    exec_sbTerminate_fails_alone h⟩, fun h hheld => ?_⟩
  obtain ⟨t, hexec, hpoisoned, htrace, hscript, hhost⟩ := exec_sbTerminate_fails_second h hheld
  refine ⟨t, hexec, hpoisoned, ?_, hscript, hhost⟩
  rw [htrace, bufEmpty_trace, sinkAnswered_trace, nextAnswer_cons h, heldBlock_eq, List.append_assoc,
    List.singleton_append]

end Sys2Proof.Machine
end

section
/-!
PROOF. What a failed write finds of a PUSH (spec/41_code_emitter.md R125, spec/44_subblock_framer.md R187,
spec/60_exceptions.md R206): every error of a PUSH of an open session is SinkWriteFailure, raised in a core that is not
yet poisoned and with the host's side untouched.
-/

namespace Sys2Proof.Machine

/-- The core is not poisoned, and the host's side is as it was in `base`. -/
structure Unpoisoned (base s : State) : Prop where
  alive : s.fsm ≠ .poisoned
  host : sameHost base s

/-- The operation completes, or raises SinkWriteFailure, in a core that is not yet poisoned (R187). -/
abbrev Run.StaysUnpoisoned (base : State) (r : Run) : Prop := r.Writes (Unpoisoned base) (Unpoisoned base)

section Push

variable {base s t : State} {r : Run} {p pixel : Byte} {key : Key}

/-- Only control state and host's side matter. -/
theorem Unpoisoned.congr (h : Unpoisoned base s) (hf : t.fsm = s.fsm) (hh : sameHost s t) : Unpoisoned base t := by
  obtain ⟨hinput, hrequest, hparams⟩ := h.host
  obtain ⟨hinput', hrequest', hparams'⟩ := hh
  exact ⟨hf ▸ h.alive, hinput'.trans hinput, hrequest'.trans hrequest, hparams'.trans hparams⟩

theorem Unpoisoned.of_kept (h : Unpoisoned base s) (hk : OutsideKept s t) : Unpoisoned base t := h.congr hk.fsm hk.host

/-- An error of an unpoisoned core is the cause, and the host's side is still that of `base` (R206). -/
theorem Unpoisoned.raised (h : Unpoisoned base s) (k : ErrorKind) :
    (raiseError k s).cause = some k ∧ sameHost base (raiseError k s) := by
  obtain ⟨_, hcause, _⟩ := raiseError_control k s
  obtain ⟨_, _, _, hinput, hrequest, hparams, _⟩ := raiseError_outside k s
  obtain ⟨hinput', hrequest', hparams'⟩ := h.host
  rw [if_neg h.alive] at hcause
  exact ⟨hcause, hinput.trans hinput', hrequest.trans hrequest', hparams.trans hparams'⟩

/-! ### The framer and the packer -/

theorem Unpoisoned.sinkWrite_stays (h : Unpoisoned base s) (bytes : List Byte) :
    (sinkWrite bytes s).StaysUnpoisoned base := by
  have hsent := h.of_kept (sinkAnswered_kept bytes s).1
  rcases sinkWrite_cases bytes s with ⟨_, hw⟩ | ⟨_, hw⟩ <;> rw [hw]
  · exact hsent
  · exact ⟨rfl, hsent⟩

theorem Unpoisoned.sbTerminate_stays (h : Unpoisoned base s) : (sbTerminate s).StaysUnpoisoned base := by
  have hpartial : (flushPartial s).StaysUnpoisoned base := by
    have hsent := h.of_kept (sinkAnswered_kept (heldBlock s) s).1
    rcases flushPartial_cases s with ⟨_, hp⟩ | ⟨_, _, hp⟩ | ⟨_, _, hp⟩ <;> rw [hp]
    · exact h
    · exact hsent.of_kept (bufEmpty_kept _).1
    · exact ⟨rfl, hsent⟩
  exact hpartial.andThen fun t ht => ht.sinkWrite_stays [0x00]

theorem Unpoisoned.extractWhile_stays (h : Unpoisoned base s) (least turns : Nat) :
    (extractWhile least turns s).StaysUnpoisoned base := by
  have hk := (extractWhile_kept least turns s).1
  cases hrun : extractWhile least turns s with
  | done t =>
    rw [hrun] at hk
    exact h.of_kept hk
  | raised k t =>
    rw [hrun] at hk
    exact ⟨extractWhile_raises hrun, h.of_kept hk⟩

theorem Unpoisoned.pack_stays (h : Unpoisoned base s) (c : Code) : (pack c s).StaysUnpoisoned base :=
  (h.of_kept (shiftIn_kept c s).1).extractWhile_stays 8 3

theorem Unpoisoned.emitData_stays (h : Unpoisoned base s) (c : Code) : (emitData c s).StaysUnpoisoned base := by
  refine (h.pack_stays c).andThen fun t ht => ?_
  obtain ⟨⟨hf, _⟩, _, _, _, hh⟩ := wcGrow_kept t
  exact ht.congr hf hh

theorem Unpoisoned.flush_stays (h : Unpoisoned base s) : (flush s).StaysUnpoisoned base :=
  (h.extractWhile_stays 1 4).andThen fun _ ht => ht.sbTerminate_stays

/-! ### One pixel -/

theorem Unpoisoned.pushInsert_stays (h : Unpoisoned base s) (hr : pushInsert key s = .ok r) :
    r.StaysUnpoisoned base := by
  rw [pushInsert] at hr
  rcases dictWrite_cases key (nextCode s) s with ⟨_, _, hw⟩ | ⟨_, _, hw⟩ | ⟨_, hw⟩ <;> rw [hw] at hr <;> cases hr
  exact h.congr (t := wcAdvance (dictPut key (nextCode s) s)) rfl ⟨rfl, rfl, rfl⟩

theorem Unpoisoned.pushSaturated_stays (h : Unpoisoned base s) : (pushSaturated s).StaysUnpoisoned base :=
  (h.pack_stays _).andThen fun t ht => ht.congr (t := dictClearAll (wcInit t)) rfl ⟨rfl, rfl, rfl⟩

theorem setPrefix_unpoisoned (c : Code) (h : Unpoisoned base s) : Unpoisoned base (setPrefix c s) :=
  h.congr rfl ⟨rfl, rfl, rfl⟩

theorem Unpoisoned.pushMiss_stays (h : Unpoisoned base s) (hr : pushMiss p s = .ok r) : r.StaysUnpoisoned base := by
  have hdata := h.emitData_stays s.pendingPrefix
  cases hrun : emitData s.pendingPrefix s with
  | raised k u =>
    rw [hrun] at hdata
    rw [pushMiss_of_raised hrun] at hr
    cases hr
    exact hdata
  | done u =>
    rw [hrun] at hdata
    have hset := setPrefix_unpoisoned (pixelCode p) hdata
    rw [pushMiss_of_done hrun] at hr
    split_ifs at hr
    · cases hr
      exact hset.pushSaturated_stays
    · exact hset.pushInsert_stays hr

theorem Unpoisoned.pushPixel_stays (h : Unpoisoned base s) (hr : pushPixel p s = .ok r) : r.StaysUnpoisoned base := by
  unfold pushPixel pushMatching at hr
  split at hr
  · cases hr
    exact ⟨by simp, h.host⟩
  · split at hr
    · cases hr
      exact setPrefix_unpoisoned _ h
    · exact h.pushMiss_stays hr

/-! ### The command -/

/-- Completing a session raises nothing of its own: FLUSHED is not POISONED (R131). -/
theorem Unpoisoned.terminate_stays (h : Unpoisoned base s) : (terminate s).StaysUnpoisoned base := by
  rw [terminate]
  split
  · exact (h.emitData_stays _).andThen fun t ht => (ht.pack_stays _).andThen fun u hu =>
      hu.flush_stays.andThen fun v hv => ⟨by simp, hv.host⟩
  · exact h

/-- A PUSH of an open session that ends in POISONED has raised SinkWriteFailure in a core not yet poisoned (R187). -/
theorem exec_push_poisoned (ho : s.fsm = .awaitFirst ∨ s.fsm = .matching) (h : exec (.push pixel) s = .next t)
    (hp : t.fsm = .poisoned) : ∃ u, t = raiseError .sinkWriteFailure u ∧ Unpoisoned s u := by
  obtain ⟨r, hpixel, rfl⟩ := exec_push_open ho h
  have hcount : Unpoisoned s (countPixel s) := ⟨by rcases ho with ho | ho <;> simp [ho], rfl, rfl, rfl⟩
  have hrun : ((r.andThen terminate).andThen fun v => .done (respondOk v)).StaysUnpoisoned s :=
    ((hcount.pushPixel_stays hpixel).andThen fun _ ht => ht.terminate_stays).andThen fun u hu =>
      hu.congr (t := respondOk u) rfl ⟨rfl, rfl, rfl⟩
  exact hrun.finish_cases.resolve_left fun hdone => hdone.alive hp

end Push

/-- Settles O20: of the three ends of a PUSH only the failed write poisons, and no error was raised before it. -/
theorem pushPoisonedOnlyBySinkFailure : Obligations.PushPoisonedOnlyBySinkFailure := by
  intro pixel s t h ho hexec hp
  obtain ⟨v, hv, hclean⟩ := exec_push_poisoned ho hexec hp
  obtain ⟨hcause, hhost⟩ := hclean.raised .sinkWriteFailure
  obtain ⟨_, _, hresponse⟩ := raiseError_control .sinkWriteFailure v
  rw [← hv] at hcause hhost hresponse
  obtain ⟨t', hexec', hcases⟩ := exec_push_cases pixel h ho
  obtain rfl : t = t' := by
    rw [hexec] at hexec'
    injection hexec'
  rcases hcases with ⟨_, ht⟩ | ⟨_, ht⟩ | ⟨u, hu, w, failed, htrace, _⟩
  · exact absurd (ht.fsm.symm.trans hp) (by decide)
  · exact absurd (ht.fsm.symm.trans hp) (by decide)
  · refine ⟨hcause, hresponse, w, failed, ?_, hhost⟩
    rw [hu, (raiseError_outside .sinkWriteFailure u).1, htrace]

end Sys2Proof.Machine
end

section
/-!
PROOF. Commands in POISONED (spec/60_exceptions.md R209): where the block is poisoned already, an error writes the
response alone.
-/

namespace Sys2Proof.Machine

/-- The cause keeps the first error, and no register changes (R206). -/
theorem raiseError_stateMisuse_of_poisoned {s : State} (hp : s.fsm = .poisoned) :
    raiseError .stateMisuse s = { s with response := some 0x03 } := by
  have hwrites : raiseError .stateMisuse s =
      { s with
        cause := if s.fsm = .poisoned then s.cause else some .stateMisuse
        fsm := .poisoned
        response := (raiseError .stateMisuse s).response } := rfl
  obtain ⟨_, _, hresponse⟩ := raiseError_control .stateMisuse s
  rw [hwrites, hresponse, if_pos hp, ← hp]
  rfl

/-- Settles O24: BEGIN, PUSH and a reserved opcode each raise StateMisuse there. -/
theorem poisonedRefusesAllButReset : Obligations.PoisonedRefusesAllButReset := by
  intro s hp
  refine ⟨fun req quota => ?begin, fun pixel => ?push, fun w rest hr hi hw => ?reserved⟩
  case begin => rw [exec_begin_refused (.inl (by simp [hp])), raiseError_stateMisuse_of_poisoned hp]
  case push => rw [exec_push_closed (.inr hp), raiseError_stateMisuse_of_poisoned hp]
  case reserved =>
    have hraised := raiseError_stateMisuse_of_poisoned (s := { s with hostInput := rest }) hp
    rw [step_of_illegal hr hi (readCommand_of_reserved hw), hraised]

end Sys2Proof.Machine
end

section
/-!
PROOF. The error that is never raised (spec/60_exceptions.md R204): up to its end no operation writes cause or
response, and the one error it can end with is SinkWriteFailure; the checks of the commands raise StateMisuse and
DataOverrun alone.
-/

namespace Sys2Proof.Machine

/-- Since `base` AllocationFailure has neither become the cause nor been answered. -/
structure AllocationSound (base s : State) : Prop where
  cause : s.cause = some .allocationFailure → base.cause = some .allocationFailure
  response : statusIs s (some .allocationFailure) → s.response = base.response

/-- The operation completes or raises SinkWriteFailure, and AllocationFailure has not been raised since `base`. -/
abbrev Run.StaysAllocationSound (base : State) (r : Run) : Prop :=
  r.Writes (AllocationSound base) (AllocationSound base)

section Sound

variable {base s t : State} {r : Run} {p pixel : Byte} {key : Key} {code : Code} {k : ErrorKind}

theorem statusCode_injective : Function.Injective statusCode := by
  rintro (_ | a) (_ | b)
  · exact fun _ => rfl
  · cases b <;> decide
  · cases a <;> decide
  · cases a <;> cases b <;> decide

/-- A response has one status (R82). -/
theorem status_unique {a b : Option ErrorKind} (ha : statusIs s a) (hb : statusIs s b) : a = b :=
  statusCode_injective (Option.some_injective _ (ha.symm.trans hb))

theorem AllocationSound.refl (s : State) : AllocationSound s s := ⟨id, fun _ => rfl⟩

/-- Only cause and response matter. -/
theorem AllocationSound.congr (h : AllocationSound base s) (hc : t.cause = s.cause) (hr : t.response = s.response) :
    AllocationSound base t :=
  ⟨hc ▸ h.cause, fun ht => hr.trans (h.response (by rwa [statusIs, hr] at ht))⟩

theorem AllocationSound.of_kept (h : AllocationSound base s) (hk : OutsideKept s t) : AllocationSound base t :=
  h.congr hk.cause hk.replies.1

theorem AllocationSound.respondOk_stays (h : AllocationSound base s) : AllocationSound base (respondOk s) :=
  ⟨h.cause, fun ht => nomatch status_unique (respondOk_status s) ht⟩

theorem AllocationSound.resetCore_stays (h : AllocationSound base s) : AllocationSound base (resetCore s) :=
  ⟨nofun, h.response⟩

/-- Any other error is the cause and the answer, or leaves the first cause (R206). -/
theorem AllocationSound.raiseError_stays (h : AllocationSound base s) (hk : k ≠ .allocationFailure) :
    AllocationSound base (raiseError k s) := by
  obtain ⟨_, hcause, _⟩ := raiseError_control k s
  refine ⟨fun ht => ?_, fun ht => absurd (Option.some_injective _ (status_unique (raiseError_status k s) ht)) hk⟩
  rw [hcause] at ht
  split_ifs at ht
  · exact h.cause ht
  · exact absurd (Option.some_injective _ ht) hk

theorem Run.StaysAllocationSound.finish (h : r.StaysAllocationSound base) : AllocationSound base (finish r) := by
  rcases h.finish_cases with hdone | ⟨u, hu, hraised⟩
  · exact hdone
  · rw [hu]
    exact hraised.raiseError_stays (by decide)

/-! ### The sink, the framer and the packer -/

/-- What leaves all but accumulator, buffer and sink alone, and raises SinkWriteFailure alone. -/
theorem AllocationSound.run_of_kept (h : AllocationSound base s) (hk : OutsideKept s r.last)
    (hraises : ∀ k t, r = .raised k t → k = .sinkWriteFailure) : r.StaysAllocationSound base := by
  cases r with
  | done t => exact h.of_kept hk
  | raised k t => exact ⟨hraises k t rfl, h.of_kept hk⟩

theorem AllocationSound.sinkWrite_stays (h : AllocationSound base s) (bytes : List Byte) :
    (sinkWrite bytes s).StaysAllocationSound base := by
  have hsent := h.of_kept (sinkAnswered_kept bytes s).1
  rcases sinkWrite_cases bytes s with ⟨_, hw⟩ | ⟨_, hw⟩ <;> rw [hw]
  · exact hsent
  · exact ⟨rfl, hsent⟩

theorem AllocationSound.sbTerminate_stays (h : AllocationSound base s) : (sbTerminate s).StaysAllocationSound base := by
  have hpartial : (flushPartial s).StaysAllocationSound base := by
    have hsent := h.of_kept (sinkAnswered_kept (heldBlock s) s).1
    rcases flushPartial_cases s with ⟨_, hp⟩ | ⟨_, _, hp⟩ | ⟨_, _, hp⟩ <;> rw [hp]
    · exact h
    · exact hsent.of_kept (bufEmpty_kept _).1
    · exact ⟨rfl, hsent⟩
  exact hpartial.andThen fun t ht => ht.sinkWrite_stays [0x00]

theorem AllocationSound.sbPut_stays (h : AllocationSound base s) (b : Byte) : (sbPut b s).StaysAllocationSound base :=
  h.run_of_kept (sbPut_kept b s).1 fun _ _ => sbPut_raises

theorem AllocationSound.extractWhile_stays (h : AllocationSound base s) (least turns : Nat) :
    (extractWhile least turns s).StaysAllocationSound base :=
  h.run_of_kept (extractWhile_kept least turns s).1 fun _ _ => extractWhile_raises

theorem AllocationSound.pack_stays (h : AllocationSound base s) (c : Code) : (pack c s).StaysAllocationSound base :=
  (h.of_kept (shiftIn_kept c s).1).extractWhile_stays 8 3

theorem AllocationSound.wcGrow_stays (h : AllocationSound base s) : AllocationSound base (wcGrow s) := by
  obtain ⟨⟨_, hcause⟩, _, _, _, _, _, _, hresponse, _⟩ := wcGrow_widthAlone s
  exact h.congr hcause hresponse

theorem AllocationSound.emitData_stays (h : AllocationSound base s) (c : Code) :
    (emitData c s).StaysAllocationSound base :=
  (h.pack_stays c).andThen fun _ ht => ht.wcGrow_stays

theorem AllocationSound.flush_stays (h : AllocationSound base s) : (flush s).StaysAllocationSound base :=
  (h.extractWhile_stays 1 4).andThen fun _ ht => ht.sbTerminate_stays

/-! ### The dictionary and one pixel -/

theorem AllocationSound.dictWrite_stays (h : AllocationSound base s) (hw : dictWrite key code s = .ok t) :
    AllocationSound base t := by
  rcases dictWrite_cases key code s with ⟨_, _, hd⟩ | ⟨_, _, hd⟩ | ⟨_, hd⟩ <;> rw [hd] at hw <;> cases hw
  exact h.congr rfl rfl

theorem AllocationSound.pushSaturated_stays (h : AllocationSound base s) :
    (pushSaturated s).StaysAllocationSound base :=
  (h.pack_stays _).andThen fun _ ht => ht.congr rfl rfl

theorem AllocationSound.pushInsert_stays (h : AllocationSound base s) (hr : pushInsert key s = .ok r) :
    r.StaysAllocationSound base := by
  rw [pushInsert] at hr
  split at hr
  · cases hr
  · next u hw =>
    cases hr
    exact (h.dictWrite_stays hw).congr rfl rfl

theorem AllocationSound.pushMiss_stays (h : AllocationSound base s) (hr : pushMiss p s = .ok r) :
    r.StaysAllocationSound base := by
  have hdata := h.emitData_stays s.pendingPrefix
  cases hrun : emitData s.pendingPrefix s with
  | raised k u =>
    rw [hrun] at hdata
    rw [pushMiss_of_raised hrun] at hr
    cases hr
    exact hdata
  | done u =>
    rw [hrun] at hdata
    have hset : AllocationSound base (setPrefix (pixelCode p) u) := AllocationSound.congr hdata rfl rfl
    rw [pushMiss_of_done hrun] at hr
    split_ifs at hr
    · cases hr
      exact hset.pushSaturated_stays
    · exact hset.pushInsert_stays hr

theorem AllocationSound.pushPixel_stays (h : AllocationSound base s) (hr : pushPixel p s = .ok r) :
    r.StaysAllocationSound base := by
  rw [pushPixel, pushMatching] at hr
  split at hr
  · cases hr
    exact h.congr rfl rfl
  · split at hr
    · cases hr
      exact h.congr rfl rfl
    · exact h.pushMiss_stays hr

theorem AllocationSound.terminate_stays (h : AllocationSound base s) : (terminate s).StaysAllocationSound base := by
  rw [terminate]
  split
  · exact (h.emitData_stays _).andThen fun t ht => (ht.pack_stays _).andThen fun u hu =>
      hu.flush_stays.andThen fun v hv => hv.congr (t := retire v) rfl rfl
  · exact h

/-! ### The operations and the step -/

theorem AllocationSound.exec_begin_stays {req : BitVec 4} {quota : BitVec 32} (h : AllocationSound base s)
    (he : exec (.begin req quota) s = .next t) : AllocationSound base t := by
  rcases exec_begin_cases req quota s with ⟨_, u, hexec, hu⟩ | ⟨_, hexec⟩ <;> rw [hexec] at he <;> cases he
  · have hopen : AllocationSound base (openSession req quota s) := h.congr rfl rfl
    exact (hopen.of_kept hu.kept).respondOk_stays
  · exact h.raiseError_stays (by decide)

theorem AllocationSound.exec_push_stays (h : AllocationSound base s) (he : exec (.push pixel) s = .next t) :
    AllocationSound base t := by
  have hopen (ho : s.fsm = .awaitFirst ∨ s.fsm = .matching) : AllocationSound base t := by
    obtain ⟨r, hr, rfl⟩ := exec_push_open ho he
    have hpixel := (h.congr (t := countPixel s) rfl rfl).pushPixel_stays hr
    have hrun : ((r.andThen terminate).andThen fun u => .done (respondOk u)).StaysAllocationSound base :=
      (hpixel.andThen fun _ ht => ht.terminate_stays).andThen fun _ => AllocationSound.respondOk_stays
    exact hrun.finish
  have hclosed (hc : s.fsm = .idle ∨ s.fsm = .poisoned) : AllocationSound base t := by
    rw [exec_push_closed hc] at he
    cases he
    exact h.raiseError_stays (by decide)
  cases hf : s.fsm with
  | idle => exact hclosed (.inl hf)
  | awaitFirst => exact hopen (.inl hf)
  | matching => exact hopen (.inr hf)
  | flushed =>
    rw [exec_push_flushed hf] at he
    cases he
    exact h.raiseError_stays (by decide)
  | poisoned => exact hclosed (.inr hf)

theorem AllocationSound.exec_dictInsert_stays (h : AllocationSound base s)
    (he : exec (.dictInsert key code) s = .next t) : AllocationSound base t := by
  rw [exec, execDictInsert] at he
  split at he
  · cases he
  · next u hw =>
    cases he
    exact (h.dictWrite_stays hw).congr rfl rfl

/-- No operation, a command's or a port's, raises AllocationFailure. -/
theorem AllocationSound.exec_stays {i : Instr} (h : AllocationSound base s) (he : exec i s = .next t) :
    AllocationSound base t := by
  cases i with
  | begin req quota => exact h.exec_begin_stays he
  | push pixel => exact h.exec_push_stays he
  | dictInsert key code => exact h.exec_dictInsert_stays he
  | reset => cases he; exact h.resetCore_stays.respondOk_stays
  | dictLookup key => cases he; exact h.congr rfl rfl
  | dictClear => cases he; exact h.congr rfl rfl
  | wcInit => cases he; exact h.congr rfl rfl
  | wcAdvance => cases he; exact h.congr rfl rfl
  | wcGrow => cases he; exact h.wcGrow_stays
  | pkEmitData code => cases he; exact (h.emitData_stays code).finish
  | pkEmitSpecial code => cases he; exact (h.pack_stays code).finish
  | pkFlush => cases he; exact h.flush_stays.finish
  | sbPut byte => cases he; exact (h.sbPut_stays byte).finish
  | sbTerminate => cases he; exact h.sbTerminate_stays.finish
  | sinkWrite payload => cases he; exact (h.sinkWrite_stays _).finish

/-- Taking what is next leaves cause and response alone. -/
theorem fetch_allocationSound (s : State) : AllocationSound s (fetch s).2 := by
  have h := AllocationSound.refl s
  rcases fetch_cases s with ⟨_, _, hf⟩ | ⟨_, _, hf⟩ | ⟨_, _, _, hf⟩ | ⟨_, _, _, _, hf⟩ <;> rw [hf] <;>
    exact h.congr rfl rfl

end Sound

/-- Settles O27: neither what `fetch` takes nor any of the things a step can do raises it. -/
theorem allocationFailureNeverRaised : Obligations.AllocationFailureNeverRaised := by
  intro s t hstep
  have hf := fetch_allocationSound s
  have ht : AllocationSound s t := by
    rcases step_cases hstep with ⟨_, rfl⟩ | ⟨_, rfl⟩ | ⟨i, _, he⟩ | ⟨_, rfl⟩
    · exact hf
    · exact hf.resetCore_stays
    · exact hf.exec_stays he
    · exact hf.raiseError_stays (by decide)
  exact ⟨ht.cause, ht.response⟩

end Sys2Proof.Machine
end

section
/-!
PROOF. The reset input (spec/70_reset_and_hazards.md R230): both forms of reset end in `resetCore`, and RESET answers as
an idle core does.
-/

namespace Sys2Proof.Machine

/-- The answer of RESET is all that tells its state from that of the reset input. -/
theorem respondOk_resetCore (s : State) : respondOk (resetCore s) = { resetCore s with response := some 0x00 } := by
  have hresponse : some (responseWord (resetCore s) none) = some 0x00 := respondOk_of_idle rfl
  rw [respondOk, hresponse]

/-- Settles O7: the reset input is `resetCore` of the state with it taken, and RESET there is `resetCore` and then the
response of an idle core. -/
theorem hardwareResetIsResetWithoutResponse : Obligations.HardwareResetIsResetWithoutResponse := by
  intro s rest hr hi
  have hinput := step_of_hardReset hr hi
  have hcommand := respondOk_resetCore { s with hostInput := rest }
  exact ⟨resetCore { s with hostInput := rest }, respondOk (resetCore { s with hostInput := rest }), hinput, rfl,
    rfl, rfl, rfl, respondOk_of_idle rfl, hcommand⟩

end Sys2Proof.Machine
end
